-- ==== Sys2Proof/Word.lean ====
section
/-! DEFINITION. The value types of the block: bytes, bit depths, orientation, rectangles, points, colours, output
lines, the ten commands as data, and the fatal faults. Types only; what is computed from them stands under Machine/. -/

namespace Sys2Proof

/-- A byte, 0..255 (00_scope.md R9). -/
abbrev Byte := BitVec 8

/-- The bit depth (10_state.md R105). -/
inductive BitDepth where
  | eight
  | sixteen
  deriving DecidableEq, Repr

/-- Pixel order (10_state.md R110). -/
inductive PixelOrder where
  | rowMajor
  | columnMajor
  deriving DecidableEq, Repr

/-- Column direction (10_state.md R110). -/
inductive ColumnDirection where
  | leftToRight
  | rightToLeft
  deriving DecidableEq, Repr

/-- Row direction (10_state.md R110). -/
inductive RowDirection where
  | normal
  | reversed
  deriving DecidableEq, Repr

/-- Row interleave (10_state.md R110). -/
inductive RowInterleave where
  | interleaved
  | notInterleaved
  deriving DecidableEq, Repr

/-- The orientation configuration: the four independent fields of 10_state.md R110, all 16 combinations legal (R112). -/
structure OrientationConfig where
  order : PixelOrder
  coldir : ColumnDirection
  rowdir : RowDirection
  interleave : RowInterleave
  deriving DecidableEq, Repr

/-- The four named presets; the names are the spec's own (10_state.md R114). -/
inductive Preset where
  | rot0
  | rot90
  | rot180
  | rot270
  deriving DecidableEq, Repr

/-- A rectangle: signed top-left corner, unsigned size (10_state.md R106). The ranges are checked by `Rect.wf`. -/
structure Rect where
  x : Int
  y : Int
  w : Nat
  h : Nat
  deriving DecidableEq, Repr

/-- A point with two signed coordinates (10_state.md R107). -/
structure Point where
  x : Int
  y : Int
  deriving DecidableEq, Repr

/-- An 8-bit colour, channel widths 3/3/2 (45_pixel_format.md R560). -/
structure C8 where
  r : BitVec 3
  g : BitVec 3
  b : BitVec 2
  deriving DecidableEq, Repr

/-- A 16-bit colour, channel widths 5/6/5 (45_pixel_format.md R570). -/
structure C16 where
  r : BitVec 5
  g : BitVec 6
  b : BitVec 5
  deriving DecidableEq, Repr

/-- The two pixel formats (45_pixel_format.md R550). -/
inductive PixelFormat where
  | p8
  | p16
  deriving DecidableEq, Repr

/-- The two output lines the block drives (10_state.md R140). -/
inductive Pin where
  | rst
  | dc
  deriving DecidableEq, Repr

/-- A level a line is driven to (00_scope.md R13). -/
inductive Level where
  | low
  | high
  deriving DecidableEq, Repr

/-- What the block knows of a line's level (10_state.md R142). -/
inductive Line where
  | low
  | high
  | unknown
  deriving DecidableEq, Repr

/-- A command, as data (41_command_encoder.md R400): exactly ten forms. -/
inductive Command where
  | masterCurrent (level : Byte)
  | contrast (r g b : Byte)
  | displayOn (on : Bool)
  | remapAndColorDepth (cfg : OrientationConfig) (d : BitDepth)
  | clearWindow (rect : Rect)
  | addressRectangle (rect : Rect)
  | drawLine (p0 p1 : Point) (cr cg cb : Byte)
  | drawRectangle (rect : Rect) (br bg bb fr fg fb : Byte)
  | setFillEnabled (e : Bool)
  | noOp
  deriving DecidableEq, Repr

/-- A fatal fault with the value 60_exceptions.md R600 says is recorded with it. Its numeric code is `Fatal.code`. -/
inductive Fatal where
  /-- FATAL_WRITE_AREA: WRITE's area is empty or outside the logical bounds (R624). -/
  | writeArea (area : Rect)
  /-- FATAL_CMD_TOO_LARGE: the second TRY_APPEND of APPEND_BATCHED returned false (R622). -/
  | cmdTooLarge (c : Command)
  /-- FATAL_EMPTY_RECT: ENC of ClearWindow or AddressRectangle of an empty rectangle (R623). -/
  | emptyRect (c : Command)
  /-- FATAL_COORD_RANGE: a corner sum outside the signed coordinate range (R621). -/
  | coordRange (c : Command)
  deriving DecidableEq, Repr

/-- The opaque error value of a failed primitive (60_exceptions.md R611): the block never looks inside it.
DESIGN CHOICE (log 19): a number stands for it, and no definition computes with the number. -/
structure EnvError where
  tag : Nat
  deriving DecidableEq, Repr, Inhabited

/-- What the environment answers to a PinSet (00_scope.md R13). -/
inductive PinAnswer where
  | ok
  | err (e : EnvError)
  deriving DecidableEq, Repr, Inhabited

/-- What the environment answers to a BusWrite: exactly one of completion with Ok, completion with Err, or
cancellation (60_exceptions.md R641). `delivered` is the draw of how many bytes reached the controller before the
failure or the cancellation (20_memory.md R231); more than the transfer's length means all of them. -/
inductive BusAnswer where
  | ok
  | err (e : EnvError) (delivered : Nat)
  | cancel (delivered : Nat)
  deriving DecidableEq, Repr

/-- What the environment answers to a Delay: it elapses or the request is cancelled there; a Delay has no error
(00_scope.md R13). -/
inductive DelayAnswer where
  | elapsed
  | cancel
  deriving DecidableEq, Repr

end Sys2Proof
end

