-- ==== Sys2Proof/Config.lean ====
section
/-! DEFINITION. The implementation parameters of 00_scope.md R7 as a record that the model takes as an argument, the
constraints R7 and 10_state.md R113, R114 put on them, and the one free value of the model. The adopted values stand in
Machine/Adopted.lean. -/

namespace Sys2Proof

/-- The parameters of one instance of the block (00_scope.md R7). -/
structure Params where
  panelW : Nat
  panelH : Nat
  cap : Nat
  codeRowMajor : Byte
  codeColumnMajor : Byte
  codeLeftToRight : Byte
  codeRightToLeft : Byte
  codeNormal : Byte
  codeReversed : Byte
  codeNotInterleaved : Byte
  codeInterleaved : Byte
  codeEight : Byte
  codeSixteen : Byte
  rot0 : OrientationConfig
  rot90 : OrientationConfig
  rot180 : OrientationConfig
  rot270 : OrientationConfig
  mcDefault : Byte
  contrastR : Byte
  contrastG : Byte
  contrastB : Byte
  tRstLow : Nat
  tRstHigh : Nat
  tClear : Nat
  initClearsBuffer : Bool
  coordMin : Int
  coordMax : Int
  sizeMax : Nat
  deriving DecidableEq, Repr

/-- 10_state.md R113: each field's two codes differ, and no two fields (the depth among them) share a set bit. -/
abbrev Params.CodesWf (p : Params) : Prop :=
  p.codeRowMajor ≠ p.codeColumnMajor ∧ p.codeLeftToRight ≠ p.codeRightToLeft ∧
  p.codeNormal ≠ p.codeReversed ∧ p.codeNotInterleaved ≠ p.codeInterleaved ∧ p.codeEight ≠ p.codeSixteen ∧
  (p.codeRowMajor ||| p.codeColumnMajor) &&& (p.codeLeftToRight ||| p.codeRightToLeft) = 0 ∧
  (p.codeRowMajor ||| p.codeColumnMajor) &&& (p.codeNormal ||| p.codeReversed) = 0 ∧
  (p.codeRowMajor ||| p.codeColumnMajor) &&& (p.codeNotInterleaved ||| p.codeInterleaved) = 0 ∧
  (p.codeRowMajor ||| p.codeColumnMajor) &&& (p.codeEight ||| p.codeSixteen) = 0 ∧
  (p.codeLeftToRight ||| p.codeRightToLeft) &&& (p.codeNormal ||| p.codeReversed) = 0 ∧
  (p.codeLeftToRight ||| p.codeRightToLeft) &&& (p.codeNotInterleaved ||| p.codeInterleaved) = 0 ∧
  (p.codeLeftToRight ||| p.codeRightToLeft) &&& (p.codeEight ||| p.codeSixteen) = 0 ∧
  (p.codeNormal ||| p.codeReversed) &&& (p.codeNotInterleaved ||| p.codeInterleaved) = 0 ∧
  (p.codeNormal ||| p.codeReversed) &&& (p.codeEight ||| p.codeSixteen) = 0 ∧
  (p.codeNotInterleaved ||| p.codeInterleaved) &&& (p.codeEight ||| p.codeSixteen) = 0

/-- 10_state.md R114: ROT0 and ROT180 are row-major, ROT90 and ROT270 column-major. -/
abbrev Params.PresetsWf (p : Params) : Prop :=
  p.rot0.order = .rowMajor ∧ p.rot90.order = .columnMajor ∧
  p.rot180.order = .rowMajor ∧ p.rot270.order = .columnMajor

/-- The coordinate and size ranges hold every rectangle inside a panel and every rectangle a wire word names.
DEDUCED (log 23): 30_encoding.md R311 says no WRITE or INIT can reach FATAL_COORD_RANGE. -/
abbrev Params.RangesWf (p : Params) : Prop :=
  p.coordMin ≤ 0 ∧ 511 ≤ p.coordMax ∧ 256 ≤ p.sizeMax

/-- The constraints of 00_scope.md R7 on the parameters. -/
abbrev Params.Wf (p : Params) : Prop :=
  (1 ≤ p.panelW ∧ p.panelW ≤ 256) ∧ (1 ≤ p.panelH ∧ p.panelH ≤ 256) ∧ 11 ≤ p.cap ∧
  p.CodesWf ∧ p.PresetsWf ∧ p.mcDefault.toNat ≤ 15 ∧
  1 ≤ p.tRstLow ∧ 1 ≤ p.tRstHigh ∧ 1 ≤ p.tClear ∧ p.RangesWf

/-- FREE VALUE (log 8): the environment's answer to a PinSet for which `State.pins` lists none. It has no body, so a
claim holds whatever it is. It is applied to the counter `State.pinDraw`. -/
opaque Config.freePin : Nat → PinAnswer

end Sys2Proof
end

