-- ==== Sys2Proof/Machine/Flags.lean ====
section
/-! DEFINITION. The flags byte of RemapAndColorDepth (10_state.md R113) and the byte widths of the depths (R105). -/

namespace Sys2Proof

/-- CODE_ORDER (00_scope.md R7). -/
def Params.codeOrder (p : Params) : PixelOrder → Byte
  | .rowMajor => p.codeRowMajor
  | .columnMajor => p.codeColumnMajor

/-- CODE_COLDIR (00_scope.md R7). -/
def Params.codeColdir (p : Params) : ColumnDirection → Byte
  | .leftToRight => p.codeLeftToRight
  | .rightToLeft => p.codeRightToLeft

/-- CODE_ROWDIR (00_scope.md R7). -/
def Params.codeRowdir (p : Params) : RowDirection → Byte
  | .normal => p.codeNormal
  | .reversed => p.codeReversed

/-- CODE_INTERLEAVE (00_scope.md R7). -/
def Params.codeInterleave (p : Params) : RowInterleave → Byte
  | .interleaved => p.codeInterleaved
  | .notInterleaved => p.codeNotInterleaved

/-- CODE_DEPTH (00_scope.md R7). -/
def Params.codeDepth (p : Params) : BitDepth → Byte
  | .eight => p.codeEight
  | .sixteen => p.codeSixteen

/-- FLAGS(cfg, d): the OR of the four field codes and the depth code (10_state.md R113). -/
def flags (p : Params) (cfg : OrientationConfig) (d : BitDepth) : Byte :=
  p.codeOrder cfg.order ||| p.codeColdir cfg.coldir ||| p.codeRowdir cfg.rowdir |||
  p.codeInterleave cfg.interleave ||| p.codeDepth d

/-- WIDTH(d), the bytes of one pixel (10_state.md R105). -/
def BitDepth.width : BitDepth → Nat
  | .eight => 1
  | .sixteen => 2

/-- All 16 orientation configurations (10_state.md R112). -/
def OrientationConfig.all : List OrientationConfig :=
  [PixelOrder.rowMajor, .columnMajor].flatMap fun o =>
  [ColumnDirection.leftToRight, .rightToLeft].flatMap fun c =>
  [RowDirection.normal, .reversed].flatMap fun r =>
  [RowInterleave.notInterleaved, .interleaved].map fun i => ⟨o, c, r, i⟩

/-- Every argument pair of FLAGS. -/
def flagArgs : List (OrientationConfig × BitDepth) :=
  OrientationConfig.all.flatMap fun c => [(c, .eight), (c, .sixteen)]

/-- The argument pair whose FLAGS is the byte, if there is one; FLAGS is injective (10_state.md R113). -/
def unflags (p : Params) (f : Byte) : Option (OrientationConfig × BitDepth) :=
  flagArgs.find? fun q => flags p q.1 q.2 == f

end Sys2Proof
end

