-- ==== Sys2Proof/Machine/Operands.lean ====
section
/-! DEFINITION. Operand assembly: how each operand form becomes bytes (30_encoding.md R310 to R316). -/

namespace Sys2Proof

/-- clamp(v) = max(v, 0) & 0xFF (30_encoding.md R310). -/
def clamp (v : Int) : Byte := BitVec.ofNat 8 (max v 0).toNat

/-- A rectangle is empty when w = 0 or h = 0 (10_state.md R106). -/
def Rect.empty (r : Rect) : Bool := r.w == 0 || r.h == 0

/-- The inclusive right edge x + w − 1, exact in ℤ (30_encoding.md R311). -/
def Rect.right (r : Rect) : Int := r.x + (r.w : Int) - 1

/-- The inclusive bottom edge y + h − 1, exact in ℤ (30_encoding.md R311). -/
def Rect.bottom (r : Rect) : Int := r.y + (r.h : Int) - 1

/-- Both corner sums lie in COORD_MIN..COORD_MAX (30_encoding.md R311). -/
def Rect.cornersInRange (p : Params) (r : Rect) : Bool :=
  decide (p.coordMin ≤ r.right) && decide (r.right ≤ p.coordMax) &&
  decide (p.coordMin ≤ r.bottom) && decide (r.bottom ≤ p.coordMax)

/-- The four coordinate bytes X0, Y0, X1, Y1 of a rectangle operand (30_encoding.md R312). -/
structure RectBytes where
  x0 : Byte
  y0 : Byte
  x1 : Byte
  y1 : Byte
  deriving DecidableEq, Repr

/-- RECT4(r), or nothing where a corner sum is out of range and the block raises FATAL_COORD_RANGE
(30_encoding.md R311, R312). -/
def rect4 (p : Params) (r : Rect) : Option RectBytes :=
  if r.cornersInRange p then some ⟨clamp r.x, clamp r.y, clamp r.right, clamp r.bottom⟩ else none

/-- The four bytes in RECT4's own order (30_encoding.md R312). -/
def RectBytes.toList (b : RectBytes) : List Byte := [b.x0, b.y0, b.x1, b.y1]

/-- A point operand is [clamp(px), clamp(py)]; no "− 1" applies (30_encoding.md R313). -/
def pointBytes (q : Point) : List Byte := [clamp q.x, clamp q.y]

/-- A Boolean operand is 1 for true and 0 for false (30_encoding.md R314). -/
def boolByte (b : Bool) : Byte := if b then 1 else 0

/-- A level operand is min(level, 15) (30_encoding.md R315, 90_conflicts.md C1). -/
def levelByte (level : Byte) : Byte := BitVec.ofNat 8 (min level.toNat 15)

end Sys2Proof
end

