-- ==== Sys2Proof/Machine/Encoder.lean ====
section
/-! DEFINITION. ENC and LEN of the ten commands (41_command_encoder.md R401, R410 to R419; formats 30_encoding.md
R301). -/

namespace Sys2Proof

/-- A command that names a rectangle: the fatal fault FATAL_COORD_RANGE, or the bytes built from RECT4
(30_encoding.md R311). -/
def withRect4 (p : Params) (c : Command) (r : Rect) (f : RectBytes → List Byte) : Except Fatal (List Byte) :=
  match rect4 p r with
  | some b => .ok (f b)
  | none => .error (.coordRange c)

/-- An addressing or clear command: first FATAL_EMPTY_RECT for an empty rectangle (41_command_encoder.md R414, R415). -/
def withNonEmptyRect4 (p : Params) (c : Command) (r : Rect) (f : RectBytes → List Byte) : Except Fatal (List Byte) :=
  if r.empty then .error (.emptyRect c) else withRect4 p c r f

/-- ENC(c), the wire encoding of a command or the fatal fault it raises (41_command_encoder.md R401). -/
def enc (p : Params) (c : Command) : Except Fatal (List Byte) :=
  match c with
  | .masterCurrent level => .ok [0x87, levelByte level]
  | .contrast r g b => .ok [0x81, r, 0x82, g, 0x83, b]
  | .displayOn on => .ok [0xAE ||| boolByte on]
  | .remapAndColorDepth cfg d => .ok [0xA0, flags p cfg d]
  | .clearWindow r => withNonEmptyRect4 p c r fun b => 0x25 :: b.toList
  | .addressRectangle r => withNonEmptyRect4 p c r fun b => [0x15, b.x0, b.x1, 0x75, b.y0, b.y1]
  | .drawLine p0 p1 cr cg cb => .ok (0x21 :: pointBytes p0 ++ pointBytes p1 ++ [cr, cg, cb])
  | .drawRectangle r br bg bb fr fg fb => withRect4 p c r fun b => 0x22 :: b.toList ++ [br, bg, bb, fr, fg, fb]
  | .setFillEnabled e => .ok [0x26, boolByte e]
  | .noOp => .ok [0xBC]

/-- LEN(c) (41_command_encoder.md R401): it depends on the command's form alone. -/
def Command.len : Command → Nat
  | .masterCurrent _ => 2
  | .contrast _ _ _ => 6
  | .displayOn _ => 1
  | .remapAndColorDepth _ _ => 2
  | .clearWindow _ => 5
  | .addressRectangle _ => 6
  | .drawLine _ _ _ _ _ => 8
  | .drawRectangle _ _ _ _ _ _ _ => 11
  | .setFillEnabled _ => 2
  | .noOp => 1

/-- The encodings of a list of commands in list order, or the first fatal fault among them
(41_command_encoder.md R441, 60_exceptions.md R641). -/
def encAll (p : Params) : List Command → Except Fatal (List (List Byte))
  | [] => .ok []
  | c :: cs =>
    match enc p c with
    | .error f => .error f
    | .ok b =>
      match encAll p cs with
      | .error f => .error f
      | .ok bs => .ok (b :: bs)

/-- The code of a fatal fault (60_exceptions.md R600). -/
def Fatal.code : Fatal → Byte
  | .writeArea _ => 0x10
  | .cmdTooLarge _ => 0x11
  | .emptyRect _ => 0x12
  | .coordRange _ => 0x13

/-- A command whose sending changes the controller behind the cache: RemapAndColorDepth or AddressRectangle
(41_command_encoder.md R442). -/
def Command.bypassesCache : Command → Bool
  | .masterCurrent _ => false
  | .contrast _ _ _ => false
  | .displayOn _ => false
  | .remapAndColorDepth _ _ => true
  | .clearWindow _ => false
  | .addressRectangle _ => true
  | .drawLine _ _ _ _ _ => false
  | .drawRectangle _ _ _ _ _ _ _ => false
  | .setFillEnabled _ => false
  | .noOp => false

end Sys2Proof
end

