-- ==== Sys2Proof/Machine/Adopted.lean ====
section
/-! DEFINITION. The adopted value of each parameter (00_scope.md R7, 10_state.md R113, R114). Those whose ground in R7
is general knowledge are PRESUMED (log 3): no claim about the block in general rests on them. -/

namespace Sys2Proof

/-- The four presets' adopted field values (10_state.md R114). PRESUMED (log 3). -/
def Preset.adopted : Preset → OrientationConfig
  | .rot0 => ⟨.rowMajor, .rightToLeft, .reversed, .interleaved⟩
  | .rot90 => ⟨.columnMajor, .rightToLeft, .reversed, .interleaved⟩
  | .rot180 => ⟨.rowMajor, .leftToRight, .normal, .interleaved⟩
  | .rot270 => ⟨.columnMajor, .leftToRight, .normal, .interleaved⟩

/-- The adopted parameters (00_scope.md R7). MC_DEFAULT, CONTRAST_DEFAULT and the three delays are the source's; the
panel size, the codes, the presets and the ranges are PRESUMED, CAP and INIT_CLEARS_BUFFER are the spec's adopted
choices (log 3). -/
def Params.adopted : Params where
  panelW := 96
  panelH := 64
  cap := 16
  codeRowMajor := 0x00
  codeColumnMajor := 0x01
  codeLeftToRight := 0x00
  codeRightToLeft := 0x02
  codeNormal := 0x00
  codeReversed := 0x10
  codeNotInterleaved := 0x00
  codeInterleaved := 0x20
  codeEight := 0x00
  codeSixteen := 0x40
  rot0 := Preset.adopted .rot0
  rot90 := Preset.adopted .rot90
  rot180 := Preset.adopted .rot180
  rot270 := Preset.adopted .rot270
  mcDefault := 5
  contrastR := 0x80
  contrastG := 0x50
  contrastB := 0x80
  tRstLow := 1
  tRstHigh := 1
  tClear := 1
  initClearsBuffer := true
  coordMin := -2147483648
  coordMax := 2147483647
  sizeMax := 4294967295

/-- PRESET(p) (00_scope.md R7). -/
def Params.preset (p : Params) : Preset → OrientationConfig
  | .rot0 => p.rot0
  | .rot90 => p.rot90
  | .rot180 => p.rot180
  | .rot270 => p.rot270

/-- DEFAULT_CFG is PRESET(ROT0) (10_state.md R115). -/
def Params.defaultCfg (p : Params) : OrientationConfig := p.preset .rot0

end Sys2Proof
end

