-- ==== Sys2Proof/Syntax.lean ====
section
/-! DEFINITION. The instructions: one constructor per row of spec/opcode_table.json. -/

namespace Sys2Proof

/-- One call on the block: a command given to the encoder (rows with a wire encoding), a request, or a function of one
of the sub-blocks (00_scope.md glossary, "Request / operation"). -/
inductive Instr where
  /-- MasterCurrent, 41_command_encoder.md R410. -/
  | masterCurrent (level : Byte)
  /-- Contrast, R411. -/
  | contrast (r g b : Byte)
  /-- DisplayOn, R412. -/
  | displayOn (on : Bool)
  /-- RemapAndColorDepth, R413. -/
  | remapAndColorDepth (cfg : OrientationConfig) (d : BitDepth)
  /-- ClearWindow, R414. -/
  | clearWindow (rect : Rect)
  /-- AddressRectangle, R415. -/
  | addressRectangle (rect : Rect)
  /-- DrawLine, R416. -/
  | drawLine (p0 p1 : Point) (cr cg cb : Byte)
  /-- DrawRectangle, R417. -/
  | drawRectangle (rect : Rect) (br bg bb fr fg fb : Byte)
  /-- SetFillEnabled, R418. -/
  | setFillEnabled (e : Bool)
  /-- NoOp, R419. -/
  | noOp
  /-- INIT, 43_driver.md R501. -/
  | init
  /-- WRITE, 43_driver.md R515. -/
  | write (data : List Byte) (depth : BitDepth) (area : Rect)
  /-- SEND, 41_command_encoder.md R441. -/
  | send (cmds : List Command)
  /-- SIZE, 42_coordinate_mapper.md R455. -/
  | size
  /-- TRY_APPEND, 41_command_encoder.md R402. -/
  | tryAppend (c : Command)
  /-- FLUSH, R403. -/
  | flush
  /-- APPEND_BATCHED, R404. -/
  | appendBatched (c : Command)
  /-- BATCH, R406. -/
  | batch (cmds : List Command)
  /-- clamp, 30_encoding.md R310. -/
  | clamp (v : Int)
  /-- TO_RAM, 42_coordinate_mapper.md R450. -/
  | toRam (r : Rect) (cfg : OrientationConfig)
  /-- LOGICAL_SIZE, R452. -/
  | logicalSize (cfg : OrientationConfig)
  /-- MAKE8, 45_pixel_format.md R560: any unsigned integers. -/
  | make8 (r g b : Nat)
  /-- ENCODE8, R562. -/
  | encode8 (c : C8)
  /-- FROM_RGB_8, R563. -/
  | fromRgb8 (r g b : Byte)
  /-- FROM_GRAY_8, R564. -/
  | fromGray8 (l : Byte)
  /-- MAKE16, R570: any unsigned integers. -/
  | make16 (r g b : Nat)
  /-- ENCODE16, R572. -/
  | encode16 (c : C16)
  /-- FROM_RGB_16, R573. -/
  | fromRgb16 (r g b : Byte)
  /-- FROM_GRAY_16, R574. -/
  | fromGray16 (l : Byte)
  deriving DecidableEq, Repr

/-- The syntax alias DisplayOff, a spelling of DisplayOn(false) (30_encoding.md R331). -/
abbrev Instr.displayOff : Instr := .displayOn false

end Sys2Proof
end

