-- ==== Sys2Proof/Decode.lean ====
section
/-! DEFINITION. The decoder of the command stream (30_encoding.md R303), total on any bytes and rejecting by name, and
the encoder. The block itself decodes nothing (R321): the decoder is the reader R303 speaks of, and the words it reads
name the rows of the opcode table that have an encoding (log 2, log 16). -/

namespace Sys2Proof

/-- Why a byte string does not begin with the encoding of a command. -/
inductive DecodeError where
  /-- There is no byte. -/
  | noBytes
  /-- The first byte is no opcode of 30_encoding.md R320. -/
  | unknownOpcode (b : Byte)
  /-- The first byte is an opcode that stands only inside a command (R302): 82, 83 or 75. -/
  | innerOpcode (b : Byte)
  /-- The command's argument bytes are missing. -/
  | truncated (b : Byte)
  /-- The inner opcodes of Contrast or AddressRectangle are not where R301 puts them. -/
  | brokenSequence (b : Byte)
  /-- The flags byte is FLAGS of no configuration and depth. -/
  | badFlags (f : Byte)
  /-- SetFillEnabled's argument byte is neither 00 nor 01. -/
  | badBoolean (b : Byte)
  deriving DecidableEq, Repr

/-- The rectangle with corner bytes (x0, y0) and (x1, y1): the one non-empty rectangle of width and height at most 256
whose RECT4 is these bytes. DEDUCED (log 16) from 30_encoding.md R312. -/
def rectOfBytes (x0 y0 x1 y1 : Byte) : Rect :=
  ⟨(x0.toNat : Int), (y0.toNat : Int), (x1 - x0).toNat + 1, (y1 - y0).toNat + 1⟩

/-- The point with coordinate bytes (x, y). -/
def pointOfBytes (x y : Byte) : Point := ⟨(x.toNat : Int), (y.toNat : Int)⟩

/-- The arguments of the command whose opcode byte is `op`, taken from the bytes after it (30_encoding.md R301). -/
def decodeArgs (p : Params) (op : Byte) (tl : List Byte) : Except DecodeError (Command × List Byte) :=
  if op = 0xBC then .ok (.noOp, tl)
  else if op = 0xAE then .ok (.displayOn false, tl)
  else if op = 0xAF then .ok (.displayOn true, tl)
  else if op = 0x87 then
    match tl with
    | l :: k => .ok (.masterCurrent l, k)
    | _ => .error (.truncated op)
  else if op = 0xA0 then
    match tl with
    | f :: k =>
      match unflags p f with
      | some q => .ok (.remapAndColorDepth q.1 q.2, k)
      | none => .error (.badFlags f)
    | _ => .error (.truncated op)
  else if op = 0x26 then
    match tl with
    | e :: k =>
      if e = 0 then .ok (.setFillEnabled false, k)
      else if e = 1 then .ok (.setFillEnabled true, k)
      else .error (.badBoolean e)
    | _ => .error (.truncated op)
  else if op = 0x25 then
    match tl with
    | x0 :: y0 :: x1 :: y1 :: k => .ok (.clearWindow (rectOfBytes x0 y0 x1 y1), k)
    | _ => .error (.truncated op)
  else if op = 0x81 then
    match tl with
    | r :: o2 :: g :: o3 :: b :: k =>
      if o2 = 0x82 ∧ o3 = 0x83 then .ok (.contrast r g b, k) else .error (.brokenSequence op)
    | _ => .error (.truncated op)
  else if op = 0x15 then
    match tl with
    | x0 :: x1 :: o2 :: y0 :: y1 :: k =>
      if o2 = 0x75 then .ok (.addressRectangle (rectOfBytes x0 y0 x1 y1), k) else .error (.brokenSequence op)
    | _ => .error (.truncated op)
  else if op = 0x21 then
    match tl with
    | x0 :: y0 :: x1 :: y1 :: cr :: cg :: cb :: k =>
      .ok (.drawLine (pointOfBytes x0 y0) (pointOfBytes x1 y1) cr cg cb, k)
    | _ => .error (.truncated op)
  else if op = 0x22 then
    match tl with
    | x0 :: y0 :: x1 :: y1 :: br :: bg :: bb :: fr :: fg :: fb :: k =>
      .ok (.drawRectangle (rectOfBytes x0 y0 x1 y1) br bg bb fr fg fb, k)
    | _ => .error (.truncated op)
  else if op = 0x82 ∨ op = 0x83 ∨ op = 0x75 then .error (.innerOpcode op)
  else .error (.unknownOpcode op)

/-- The command a byte string begins with, and the bytes after it (30_encoding.md R303). -/
def decodeCommand (p : Params) : List Byte → Except DecodeError (Command × List Byte)
  | [] => .error .noBytes
  | op :: tl => decodeArgs p op tl

/-- The whole byte string split into commands from left to right (30_encoding.md R303). `fuel` bounds the number of
commands; the string's length is always enough. -/
def decodeStream (p : Params) : Nat → List Byte → Except DecodeError (List Command)
  | _, [] => .ok []
  | 0, _ :: _ => .error .noBytes
  | n + 1, b :: bs =>
    match decodeCommand p (b :: bs) with
    | .error e => .error e
    | .ok (c, k) =>
      match decodeStream p n k with
      | .error e => .error e
      | .ok cs => .ok (c :: cs)

/-- The instruction of a command's opcode-table row. -/
def Command.toInstr : Command → Instr
  | .masterCurrent level => .masterCurrent level
  | .contrast r g b => .contrast r g b
  | .displayOn on => .displayOn on
  | .remapAndColorDepth cfg d => .remapAndColorDepth cfg d
  | .clearWindow r => .clearWindow r
  | .addressRectangle r => .addressRectangle r
  | .drawLine p0 p1 cr cg cb => .drawLine p0 p1 cr cg cb
  | .drawRectangle r br bg bb fr fg fb => .drawRectangle r br bg bb fr fg fb
  | .setFillEnabled e => .setFillEnabled e
  | .noOp => .noOp

/-- The command of an instruction whose row has a wire encoding; the requests and the functions have none
(30_encoding.md, opening). -/
def Instr.command? : Instr → Option Command
  | .masterCurrent level => some (.masterCurrent level)
  | .contrast r g b => some (.contrast r g b)
  | .displayOn on => some (.displayOn on)
  | .remapAndColorDepth cfg d => some (.remapAndColorDepth cfg d)
  | .clearWindow r => some (.clearWindow r)
  | .addressRectangle r => some (.addressRectangle r)
  | .drawLine p0 p1 cr cg cb => some (.drawLine p0 p1 cr cg cb)
  | .drawRectangle r br bg bb fr fg fb => some (.drawRectangle r br bg bb fr fg fb)
  | .setFillEnabled e => some (.setFillEnabled e)
  | .noOp => some .noOp
  | .init => none
  | .write _ _ _ => none
  | .send _ => none
  | .size => none
  | .tryAppend _ => none
  | .flush => none
  | .appendBatched _ => none
  | .batch _ => none
  | .clamp _ => none
  | .toRam _ _ => none
  | .logicalSize _ => none
  | .make8 _ _ _ => none
  | .encode8 _ => none
  | .fromRgb8 _ _ _ => none
  | .fromGray8 _ => none
  | .make16 _ _ _ => none
  | .encode16 _ => none
  | .fromRgb16 _ _ _ => none
  | .fromGray16 _ => none

/-- The instruction a byte string begins with, and the bytes after it. -/
def decode (p : Params) (bs : List Byte) : Except DecodeError (Instr × List Byte) :=
  match decodeCommand p bs with
  | .error e => .error e
  | .ok (c, k) => .ok (c.toInstr, k)

/-- The bytes of an instruction: nothing for a row without an encoding, and for a command's row its ENC
(41_command_encoder.md R401), which is nothing where ENC raises a fatal fault. -/
def encode (p : Params) (i : Instr) : Option (List Byte) :=
  match i.command? with
  | none => none
  | some c =>
    match enc p c with
    | .ok b => some b
    | .error _ => none

/-- The length of the longest encoding in bytes (30_encoding.md R301). -/
def maxLength : Nat := 11

/-- The bytes of the number `w`, least significant first. -/
def bytesOfNat : Nat → Nat → List Byte
  | 0, _ => []
  | n + 1, w => BitVec.ofNat 8 w :: bytesOfNat n (w / 256)

/-- Zero operand bytes up to the longest instruction. -/
def padBytes (bs : List Byte) : List Byte := bs ++ List.replicate (maxLength - bs.length) 0

/-- The bytes, first sent first, of a table word of `nbits` bits. spec/opcode_table.json numbers a row as one number
whose HIGHEST byte is the first byte sent (MasterCurrent's opcode 87 is its bits 15..8). DESIGN CHOICE (log 17): a word
that does not decode in that order is read with the first byte lowest. -/
def tableBytes (nbits w : Nat) : List Byte :=
  let low := bytesOfNat (nbits / 8) w
  match decode Params.adopted (padBytes low.reverse) with
  | .ok _ => padBytes low.reverse
  | .error _ => padBytes low

/-- The instruction the decoder reads from a table word, under the adopted codes. -/
def decodeTableWord (nbits w : Nat) : Option Instr :=
  match decode Params.adopted (tableBytes nbits w) with
  | .ok (i, _) => some i
  | .error _ => none

end Sys2Proof
end

