-- ==== Sys2Proof/Machine/State.lean ====
section
/-! DEFINITION. The state of the block as plain data: the record S of 10_state.md R100, the instance's parameters, and
the model's own fields (pending requests, the environment's answers, the trace). Types, State and State.reset only. -/

namespace Sys2Proof.Machine

/-- The two error kinds returned to the requester (60_exceptions.md R600, R610). -/
inductive IoError where
  /-- ERR_PIN, a pin-signal failure. -/
  | pin (e : EnvError)
  /-- ERR_BUS, a transport failure. -/
  | bus (e : EnvError)
  deriving DecidableEq, Repr

/-- The outcome of a PinSet as its event records it (10_state.md R141). -/
inductive PinResult where
  | ok
  | err (e : EnvError)
  deriving DecidableEq, Repr

/-- The outcome of a BusWrite as its event records it (10_state.md R141). DESIGN CHOICE (log 12): `cancelled` marks the
transfer that a cancellation left without an outcome. -/
inductive BusResult where
  | ok
  | err (e : EnvError)
  | cancelled
  deriving DecidableEq, Repr

/-- The response a request ends with (10_state.md R121, R140). -/
inductive Response where
  | ok
  | err (e : IoError)
  deriving DecidableEq, Repr

/-- One event of the trace (10_state.md R141). -/
inductive Event where
  | pin (p : Pin) (lvl : Level) (r : PinResult)
  | bus (dc : Line) (bytes : List Byte) (r : BusResult)
  | delay (ms : Nat)
  | cancel
  | resp (r : Response)
  | fatal (f : Fatal)
  deriving DecidableEq, Repr

/-- The value a call returned to its caller (10_state.md R121: returned, not stored). -/
inductive Result where
  /-- No value: no call has returned yet, or the last one was cancelled or raised a fatal fault. -/
  | nothing
  /-- Ok without a value. -/
  | unit
  /-- A typed I/O failure. -/
  | err (e : IoError)
  /-- TRY_APPEND's fits (R120). -/
  | fits (b : Bool)
  /-- A size (width, height): SIZE and LOGICAL_SIZE. -/
  | size (w h : Nat)
  /-- A byte string: ENC of a command, ENCODE8, ENCODE16. -/
  | bytes (bs : List Byte)
  /-- A byte: clamp. -/
  | byte (b : Byte)
  /-- A rectangle: TO_RAM. -/
  | rect (r : Rect)
  /-- An 8-bit colour. -/
  | c8 (c : C8)
  /-- A 16-bit colour. -/
  | c16 (c : C16)
  deriving DecidableEq, Repr

/-- The lifecycle (10_state.md R132). -/
inductive Life where
  | uninitialized
  | initializing
  | ready
  | indeterminate
  | faulted
  deriving DecidableEq, Repr

/-- One line of an operation's pseudocode (00_scope.md R6: "a program over these events"). -/
inductive Act where
  /-- `S.life <- l`. -/
  | setLife (l : Life)
  /-- `try PinSet(p, lvl)`. -/
  | pin (p : Pin) (lvl : Level)
  /-- `await Delay(ms)`. -/
  | delay (ms : Nat)
  /-- INIT's reset of the cache (43_driver.md R501). -/
  | resetCache
  /-- APPEND_BATCHED(c) (41_command_encoder.md R404). -/
  | append (c : Command)
  /-- The second TRY_APPEND of APPEND_BATCHED, after its FLUSH (R404). -/
  | retry (c : Command)
  /-- FLUSH (R403). -/
  | flush
  /-- `S.depth <- d` (43_driver.md R511). -/
  | setDepth (d : BitDepth)
  /-- `S.addr <- q` (R512). -/
  | setAddr (q : Rect)
  /-- WRITE's data phase (R514): `try PinSet(DC, High); try await BusWrite(data)`. -/
  | dataPhase (data : List Byte)
  /-- `return Ok` of a request that answers on the response port. -/
  | respond
  /-- The return of an encoder function, which answers on no port. -/
  | ret
  deriving DecidableEq, Repr

/-- A resumption point (10_state.md R130): what the suspended operation awaits. -/
inductive AwaitPoint where
  /-- `await Delay(ms)`. -/
  | delay (ms : Nat)
  /-- `await BusWrite(S.buf)` of FLUSH. -/
  | flush
  /-- `await BusWrite(data)` of WRITE's data phase. -/
  | data (bytes : List Byte)
  deriving DecidableEq, Repr

/-- The sequencer phase (10_state.md R130). `rest` is what of the operation's pseudocode follows the point. -/
inductive Phase where
  | idle
  | busy (op : Instr) (point : AwaitPoint) (rest : List Act)
  deriving DecidableEq, Repr

/-- One pending item of the request port (log 2): a call, or a stretch of the command stream's bytes whose first command
is the call. -/
inductive PortItem where
  | call (i : Instr)
  | word (bytes : List Byte)
  deriving DecidableEq, Repr

/-- A byte handed to the controller, with the DC level it was sent under. -/
structure WireByte where
  dc : Line
  byte : Byte
  deriving DecidableEq, Repr

/-- The state of the machine. -/
structure State where
  /-- The cache's current bit depth (10_state.md R101). -/
  depth : BitDepth
  /-- The cache's current addressed rectangle, in RAM coordinates (R102). -/
  addr : Rect
  /-- The command bytes not yet transmitted (R103, 20_memory.md R201). -/
  buf : List Byte
  /-- The orientation configuration, fixed at construction (R110, R111). -/
  cfg : OrientationConfig
  /-- The last level driven onto DC (R142). -/
  dc : Line
  /-- The last level driven onto RST (R142). -/
  rst : Line
  /-- The lifecycle (R132). -/
  life : Life
  /-- The sequencer phase (R130). -/
  phase : Phase
  /-- The parameters of the instance (00_scope.md R7), an argument of the model that no step changes (log 3). -/
  par : Params
  /-- Pending calls, oldest first (log 2). -/
  port : List PortItem
  /-- The environment's coming answers to PinSet (log 7). -/
  pins : List PinAnswer
  /-- The index of the next free PinSet answer (log 8). -/
  pinDraw : Nat
  /-- The environment's coming completions of BusWrite (log 7). -/
  buses : List BusAnswer
  /-- The environment's coming completions of Delay (log 7). -/
  delays : List DelayAnswer
  /-- What the last call returned (log 14). -/
  result : Result
  /-- The events so far, oldest first (R141). -/
  trace : List Event
  /-- The bytes handed to the controller so far, oldest first (log 13). -/
  wire : List WireByte
  deriving DecidableEq, Repr

/-- Why the machine stops: it has no further step. -/
inductive Fault where
  /-- Raised by `step` and by every meaning when the lifecycle is Faulted: the block takes no step ever again
  (10_state.md R134). Safe: the block stops there too. -/
  | blockFaulted
  /-- Raised by `step` at a resumption point for which the environment has listed no answer: a hung transport blocks the
  block indefinitely (60_exceptions.md R631, 93_implementation_defined.md U14). Safe: the block has no step there. -/
  | awaitUnanswered
  deriving DecidableEq, Repr

/-- Why the model gives no step. -/
inductive Refusal where
  /-- Raised by `exec` for an instruction without a meaning. Safe. -/
  | notModelled (mnemonic : String)
  /-- Raised by every meaning when a request is in flight: such a request has no step (10_state.md R131, U13). Safe
  where the caller keeps the contract. -/
  | requestWhileBusy
  /-- Raised by `step` when the block is idle and no call is pending: it has no background activity (R240). Safe. -/
  | noRequest
  /-- Raised by `step` for port bytes that begin no command (30_encoding.md R321). Safe: the block never emits them. -/
  | undecodable (e : DecodeError)
  /-- Raised by `step` for a call whose operands are outside their types (10_state.md R106). Safe: no such value
  exists. -/
  | illFormed
  deriving DecidableEq, Repr

/-- The state at construction (10_state.md R160), for the parameters, the configuration and the two draws given. The
model's own fields start empty (log 22). -/
def State.construct (p : Params) (cfg : OrientationConfig) (depth : BitDepth) (addr : Rect) : State where
  depth := depth
  addr := addr
  buf := []
  cfg := cfg
  dc := .unknown
  rst := .unknown
  life := .uninitialized
  phase := .idle
  par := p
  port := []
  pins := []
  pinDraw := 0
  buses := []
  delays := []
  result := .nothing
  trace := []
  wire := []

/-- The machine right after construction, under the adopted parameters. The spec leaves CFG, depth and addr open there:
DESIGN CHOICE CFG = DEFAULT_CFG (log 6), depth = Eight (log 4), addr = {0,0,1,1} (log 5). -/
def State.reset : State :=
  State.construct Params.adopted Params.adopted.defaultCfg .eight ⟨0, 0, 1, 1⟩

end Sys2Proof.Machine
end

