-- ==== Sys2Proof/Machine/Ops.lean ====
section
/-! DEFINITION. The shared operations: field updates, the environment primitives, the encoder's TRY_APPEND, the ways an
operation ends (return, I/O failure, fatal fault, cancellation), running an operation's pseudocode to its next
resumption point, and resuming it there. -/

namespace Sys2Proof.Machine

/-! ## Field updates (00_scope.md R12) -/

def State.setDepth (s : State) (v : BitDepth) : State := { s with depth := v }
def State.setAddr (s : State) (v : Rect) : State := { s with addr := v }
def State.setBuf (s : State) (v : List Byte) : State := { s with buf := v }
def State.setDc (s : State) (v : Line) : State := { s with dc := v }
def State.setRst (s : State) (v : Line) : State := { s with rst := v }
def State.setLife (s : State) (v : Life) : State := { s with life := v }
def State.setPhase (s : State) (v : Phase) : State := { s with phase := v }
def State.setPort (s : State) (v : List PortItem) : State := { s with port := v }
def State.setPins (s : State) (v : List PinAnswer) : State := { s with pins := v }
def State.setPinDraw (s : State) (v : Nat) : State := { s with pinDraw := v }
def State.setBuses (s : State) (v : List BusAnswer) : State := { s with buses := v }
def State.setDelays (s : State) (v : List DelayAnswer) : State := { s with delays := v }
def State.setResult (s : State) (v : Result) : State := { s with result := v }

/-- Record one event (10_state.md R141). -/
def State.emit (s : State) (e : Event) : State := { s with trace := s.trace ++ [e] }

/-- Hand bytes to the controller under the present DC level (20_memory.md R220, R241). -/
def State.deliver (s : State) (bs : List Byte) : State := { s with wire := s.wire ++ bs.map (WireByte.mk s.dc) }

/-! ## The buffer and the data slice (00_scope.md R13) -/

/-- MemRead(off, n): n bytes of the data slice at offset off. -/
def memRead (data : List Byte) (off n : Nat) : List Byte := (data.drop off).take n

/-- MemWrite(off, len(v), v): v written into the command buffer at offset off (20_memory.md R202). -/
def memWrite (buf : List Byte) (off : Nat) (v : List Byte) : List Byte :=
  buf.take off ++ v ++ buf.drop (off + v.length)

/-- TRY_APPEND(c) (41_command_encoder.md R402): the fatal fault of ENC, or whether it fits and the state after. -/
def tryAppend (c : Command) (s : State) : Except Fatal (Bool × State) :=
  match enc s.par c with
  | .error f => .error f
  | .ok b =>
    if s.buf.length + b.length ≤ s.par.cap then .ok (true, s.setBuf (memWrite s.buf s.buf.length b))
    else .ok (false, s)

/-! ## The environment primitives (00_scope.md R13) -/

/-- The environment's next PinSet answer: the next one listed, or a free value (log 8). -/
def State.nextPin (s : State) : PinAnswer × State :=
  match s.pins with
  | a :: as => (a, s.setPins as)
  | [] => (Config.freePin s.pinDraw, s.setPinDraw (s.pinDraw + 1))

/-- What the block knows of a line it has driven to a level. -/
def Level.line : Level → Line
  | .low => .low
  | .high => .high

/-- Record a line's level (10_state.md R142). -/
def State.setLine (s : State) (p : Pin) (v : Line) : State :=
  match p with
  | .dc => s.setDc v
  | .rst => s.setRst v

/-- PinSet(p, lvl) (00_scope.md R13, 10_state.md R142): its error, if any, and the state after. -/
def pinSet (p : Pin) (lvl : Level) (s : State) : Option EnvError × State :=
  match s.nextPin with
  | (.ok, t) => (none, (t.setLine p (Level.line lvl)).emit (.pin p lvl .ok))
  | (.err e, t) => (some e, (t.setLine p .unknown).emit (.pin p lvl (.err e)))

/-! ## The codes of the exceptional outcomes (60_exceptions.md R600) -/

/-- ERR_PIN and ERR_BUS. -/
def IoError.code : IoError → Byte
  | .pin _ => 0x01
  | .bus _ => 0x02

/-- CANCELLED. -/
def cancelledCode : Byte := 0x03

/-- The code of the exceptional outcome that an event records, if it records one: the returned error, the cancellation
or the fatal fault. -/
def Event.code? : Event → Option Byte
  | .pin _ _ _ => none
  | .bus _ _ _ => none
  | .delay _ => none
  | .resp .ok => none
  | .resp (.err e) => some e.code
  | .cancel => some cancelledCode
  | .fatal f => some f.code

/-! ## How an operation ends (10_state.md R121) -/

/-- A function returns v: it answers on no port and records no event (10_state.md R140). -/
def State.ret (s : State) (v : Result) : State := (s.setResult v).setPhase .idle

/-- A request returns Ok on the response port (10_state.md R140, R141). -/
def State.respond (s : State) : State := (s.emit (.resp .ok)).ret .unit

/-- `fail Pin(e)` or `fail Bus(e)` (60_exceptions.md R610). -/
def State.fail (s : State) (e : IoError) : State :=
  ((s.emit (.resp (.err e))).setLife .indeterminate).ret (.err e)

/-- `raise Fatal(code)` (60_exceptions.md R620): the phase stays as it stands (log 10). -/
def State.raise (s : State) (f : Fatal) : State :=
  ((s.emit (.fatal f)).setLife .faulted).setResult .nothing

/-- Cancellation at a resumption point (60_exceptions.md R630). -/
def State.cancelled (s : State) : State := ((s.emit .cancel).setLife .indeterminate).ret .nothing

/-- The operation suspends at a resumption point (10_state.md R130). -/
def State.suspend (s : State) (op : Instr) (point : AwaitPoint) (rest : List Act) : State :=
  s.setPhase (.busy op point rest)

/-! ## Running an operation's pseudocode -/

/-- INIT's reset of the cache (43_driver.md R501). -/
def State.resetCache (s : State) : State :=
  let t := (s.setDepth .sixteen).setAddr ⟨0, 0, s.par.panelW, s.par.panelH⟩
  if s.par.initClearsBuffer then t.setBuf [] else t

/-- The non-empty FLUSH up to its resumption point (41_command_encoder.md R403); `rest` follows the transfer. -/
def flushThen (op : Instr) (rest : List Act) (s : State) : State :=
  match pinSet .dc .low s with
  | (none, t) => t.suspend op .flush rest
  | (some e, t) => t.fail (.pin e)

/-- WRITE's data phase up to its resumption point (43_driver.md R514). -/
def dataThen (op : Instr) (data : List Byte) (rest : List Act) (s : State) : State :=
  match pinSet .dc .high s with
  | (none, t) => t.suspend op (.data (memRead data 0 data.length)) rest
  | (some e, t) => t.fail (.pin e)

/-- Run an operation's pseudocode up to its next resumption point or its end, as one indivisible step
(10_state.md R130). A command that does not fit an empty buffer meets a FLUSH without an event and a second TRY_APPEND
that returns the same false, so FATAL_CMD_TOO_LARGE (41_command_encoder.md R403, R404). -/
def runActs (op : Instr) : List Act → State → State
  | [], s => s.ret .unit
  | .setLife l :: k, s => runActs op k (s.setLife l)
  | .pin p lvl :: k, s =>
    match pinSet p lvl s with
    | (none, t) => runActs op k t
    | (some e, t) => t.fail (.pin e)
  | .delay ms :: k, s => s.suspend op (.delay ms) k
  | .resetCache :: k, s => runActs op k s.resetCache
  | .append c :: k, s =>
    match tryAppend c s with
    | .error f => s.raise f
    | .ok (true, t) => runActs op k t
    | .ok (false, t) => if t.buf = [] then t.raise (.cmdTooLarge c) else flushThen op (.retry c :: k) t
  | .retry c :: k, s =>
    match tryAppend c s with
    | .error f => s.raise f
    | .ok (true, t) => runActs op k t
    | .ok (false, t) => t.raise (.cmdTooLarge c)
  | .flush :: k, s => if s.buf = [] then runActs op k s else flushThen op k s
  | .setDepth d :: k, s => runActs op k (s.setDepth d)
  | .setAddr q :: k, s => runActs op k (s.setAddr q)
  | .dataPhase data :: k, s => dataThen op data k s
  | .respond :: _, s => s.respond
  | .ret :: _, s => s.ret .unit

/-! ## Resuming (10_state.md R130, 60_exceptions.md R610, R630) -/

/-- A BusWrite completed with Ok: every byte has been handed to the bus (20_memory.md R231). -/
def State.busDone (s : State) (bytes : List Byte) : State := (s.emit (.bus s.dc bytes .ok)).deliver bytes

/-- A BusWrite returned Err(e): some number of its leading bytes has been delivered (20_memory.md R231), and the request
fails with Bus(e). -/
def State.busFailed (s : State) (bytes : List Byte) (e : EnvError) (n : Nat) : State :=
  ((s.emit (.bus s.dc bytes (.err e))).deliver (bytes.take n)).fail (.bus e)

/-- The request was cancelled at a BusWrite: some number of its leading bytes has been delivered (60_exceptions.md
R630). -/
def State.busCancelled (s : State) (bytes : List Byte) (n : Nat) : State :=
  ((s.emit (.bus s.dc bytes .cancelled)).deliver (bytes.take n)).cancelled

/-- A BusWrite of `bytes` is answered: `done` continues after Ok, once the event is recorded. -/
def answerBus (bytes : List Byte) (done : State → State) (s : State) : Host.Outcome State Fault Refusal :=
  match s.buses with
  | [] => .fault .awaitUnanswered
  | .ok :: as => .next (done ((s.setBuses as).busDone bytes))
  | .err e n :: as => .next ((s.setBuses as).busFailed bytes e n)
  | .cancel n :: as => .next ((s.setBuses as).busCancelled bytes n)

/-- A Delay is answered: it elapsed, or the request is cancelled there. -/
def answerDelay (ms : Nat) (done : State → State) (s : State) : Host.Outcome State Fault Refusal :=
  match s.delays with
  | [] => .fault .awaitUnanswered
  | .elapsed :: ds => .next (done ((s.setDelays ds).emit (.delay ms)))
  | .cancel :: ds => .next (s.setDelays ds).cancelled

/-- The step of a suspended operation: the environment's answer at the point, and the pseudocode up to the next one. -/
def resume (op : Instr) (point : AwaitPoint) (rest : List Act) (s : State) : Host.Outcome State Fault Refusal :=
  match point with
  | .delay ms => answerDelay ms (runActs op rest) s
  | .flush => answerBus s.buf (fun t => runActs op rest (t.setBuf [])) s
  | .data bytes => answerBus bytes (runActs op rest) s

/-! ## Accepting a request -/

/-- A call is accepted when no other is in flight and the block has not faulted (10_state.md R131, R134). -/
def accept (s : State) (body : State → State) : Host.Outcome State Fault Refusal :=
  if s.life = .faulted then .fault .blockFaulted
  else
    match s.phase with
    | .busy _ _ _ => .refused .requestWhileBusy
    | .idle => .next (body s)

end Sys2Proof.Machine
end

