-- ==== Sys2Proof/Machine/Batching.lean ====
section
/-! DEFINITION. The encoder functions TRY_APPEND, FLUSH, APPEND_BATCHED, BATCH and the SEND request
(41_command_encoder.md R402 to R406, R441). Called on their own, the functions answer on no port when they return
(log 15). -/

namespace Sys2Proof.Machine

/-- R402: fits is returned. -/
def execTryAppend (c : Command) (s : State) : Host.Outcome State Fault Refusal :=
  accept s fun s =>
    match tryAppend c s with
    | .error f => s.raise f
    | .ok (fits, t) => t.ret (.fits fits)

/-- R403. -/
def execFlush (s : State) : Host.Outcome State Fault Refusal :=
  accept s (runActs .flush [.flush, .ret])

/-- R404. -/
def execAppendBatched (c : Command) (s : State) : Host.Outcome State Fault Refusal :=
  accept s (runActs (.appendBatched c) [.append c, .ret])

/-- BATCH's pseudocode (R406). -/
def batchActs (cmds : List Command) : List Act := cmds.map .append ++ [.flush]

/-- R406. -/
def execBatch (cmds : List Command) (s : State) : Host.Outcome State Fault Refusal :=
  accept s (runActs (.batch cmds) (batchActs cmds ++ [.ret]))

/-- SEND's pseudocode after its check of every command (R441, R442). -/
def sendActs (cmds : List Command) : List Act :=
  batchActs cmds ++ (if cmds.any Command.bypassesCache then [.setLife .indeterminate] else []) ++ [.respond]

/-- R441: every command is checked first, in list order, before any event (60_exceptions.md R641). -/
def execSend (cmds : List Command) (s : State) : Host.Outcome State Fault Refusal :=
  accept s fun s =>
    match encAll s.par cmds with
    | .error f => s.raise f
    | .ok _ => runActs (.send cmds) (sendActs cmds) s

end Sys2Proof.Machine
end

