-- ==== Sys2Proof/Machine/Commands.lean ====
section
/-! DEFINITION. The meanings of the ten command rows (41_command_encoder.md R410 to R419): a call on the encoder that
returns ENC of the command, or raises the fatal fault ENC raises; no cache register is written (log 1). -/

namespace Sys2Proof.Machine

/-- ENC(c) as a call: its bytes are returned, its fatal fault raised (41_command_encoder.md R401). -/
def encodeCall (c : Command) (s : State) : Host.Outcome State Fault Refusal :=
  accept s fun s =>
    match enc s.par c with
    | .ok b => s.ret (.bytes b)
    | .error f => s.raise f

/-- R410. -/
def execMasterCurrent (level : Byte) (s : State) : Host.Outcome State Fault Refusal :=
  encodeCall (.masterCurrent level) s

/-- R411. -/
def execContrast (r g b : Byte) (s : State) : Host.Outcome State Fault Refusal :=
  encodeCall (.contrast r g b) s

/-- R412. -/
def execDisplayOn (on : Bool) (s : State) : Host.Outcome State Fault Refusal :=
  encodeCall (.displayOn on) s

/-- R413. -/
def execRemapAndColorDepth (cfg : OrientationConfig) (d : BitDepth) (s : State) : Host.Outcome State Fault Refusal :=
  encodeCall (.remapAndColorDepth cfg d) s

/-- R414. -/
def execClearWindow (r : Rect) (s : State) : Host.Outcome State Fault Refusal :=
  encodeCall (.clearWindow r) s

/-- R415. -/
def execAddressRectangle (r : Rect) (s : State) : Host.Outcome State Fault Refusal :=
  encodeCall (.addressRectangle r) s

/-- R416. -/
def execDrawLine (p0 p1 : Point) (cr cg cb : Byte) (s : State) : Host.Outcome State Fault Refusal :=
  encodeCall (.drawLine p0 p1 cr cg cb) s

/-- R417. -/
def execDrawRectangle (r : Rect) (br bg bb fr fg fb : Byte) (s : State) : Host.Outcome State Fault Refusal :=
  encodeCall (.drawRectangle r br bg bb fr fg fb) s

/-- R418. -/
def execSetFillEnabled (e : Bool) (s : State) : Host.Outcome State Fault Refusal :=
  encodeCall (.setFillEnabled e) s

/-- R419. -/
def execNoOp (s : State) : Host.Outcome State Fault Refusal :=
  encodeCall .noOp s

/-- clamp, 30_encoding.md R310. -/
def execClamp (v : Int) (s : State) : Host.Outcome State Fault Refusal :=
  accept s fun s => s.ret (.byte (clamp v))

end Sys2Proof.Machine
end

