-- ==== Sys2Proof/Machine/Mapper.lean ====
section
/-! DEFINITION. The coordinate mapper, the logical size and the bounds (42_coordinate_mapper.md). -/

namespace Sys2Proof

/-- TO_RAM(r, cfg) (R450): the identity when row-major, else the transpose. -/
def toRam (r : Rect) (cfg : OrientationConfig) : Rect :=
  match cfg.order with
  | .rowMajor => r
  | .columnMajor => ⟨r.y, r.x, r.h, r.w⟩

/-- LOGICAL_SIZE(cfg) (R452): (LW, LH). -/
def logicalSize (p : Params) (cfg : OrientationConfig) : Nat × Nat :=
  match cfg.order with
  | .rowMajor => (p.panelW, p.panelH)
  | .columnMajor => (p.panelH, p.panelW)

/-- The rectangle is non-empty and lies inside [0, w) × [0, h) (R453). -/
def Rect.within (r : Rect) (w h : Nat) : Bool :=
  decide (0 < r.w) && decide (0 < r.h) && decide (0 ≤ r.x) && decide (0 ≤ r.y) &&
  decide (r.x + r.w ≤ w) && decide (r.y + r.h ≤ h)

/-- IN_LOGICAL(r, cfg) (R453). -/
def inLogical (p : Params) (r : Rect) (cfg : OrientationConfig) : Bool :=
  r.within (logicalSize p cfg).1 (logicalSize p cfg).2

/-- IN_PANEL(q) (R453). -/
def inPanel (p : Params) (q : Rect) : Bool := q.within p.panelW p.panelH

end Sys2Proof

namespace Sys2Proof.Machine

/-- TO_RAM, R450. -/
def execToRam (r : Rect) (cfg : OrientationConfig) (s : State) : Host.Outcome State Fault Refusal :=
  accept s fun s => s.ret (.rect (toRam r cfg))

/-- LOGICAL_SIZE, R452. -/
def execLogicalSize (cfg : OrientationConfig) (s : State) : Host.Outcome State Fault Refusal :=
  accept s fun s => s.ret (.size (logicalSize s.par cfg).1 (logicalSize s.par cfg).2)

/-- SIZE, R455: LOGICAL_SIZE of the instance's configuration, without an event. -/
def execSize (s : State) : Host.Outcome State Fault Refusal :=
  accept s fun s => s.ret (.size (logicalSize s.par s.cfg).1 (logicalSize s.par s.cfg).2)

end Sys2Proof.Machine
end

