-- ==== Sys2Proof/Machine/Driver.lean ====
section
/-! DEFINITION. The driver operations INIT and WRITE (43_driver.md). -/

namespace Sys2Proof.Machine

/-- The five initialisation commands (R501). -/
def initCommands (p : Params) (cfg : OrientationConfig) : List Command :=
  [.remapAndColorDepth cfg .sixteen, .masterCurrent p.mcDefault,
   .contrast p.contrastR p.contrastG p.contrastB, .clearWindow ⟨0, 0, p.panelW, p.panelH⟩, .displayOn true]

/-- INIT's pseudocode (R501). -/
def initActs (p : Params) (cfg : OrientationConfig) : List Act :=
  [.setLife .initializing, .pin .rst .low, .delay p.tRstLow, .pin .rst .high, .delay p.tRstHigh, .resetCache] ++
  batchActs (initCommands p cfg) ++ [.delay p.tClear, .setLife .ready, .respond]

/-- INIT, R501. -/
def execInit (s : State) : Host.Outcome State Fault Refusal :=
  accept s fun s => runActs .init (initActs s.par s.cfg) s

/-- WRITE's pseudocode after its bounds check (R515), for the cache values at the start; step 1 does not change the
addressed rectangle that step 2 compares (log 18). -/
def writeActs (cfg : OrientationConfig) (curDepth : BitDepth) (curAddr : Rect)
    (data : List Byte) (depth : BitDepth) (area : Rect) : List Act :=
  (if depth ≠ curDepth then [.append (.remapAndColorDepth cfg depth), .setDepth depth] else []) ++
  (if toRam area cfg ≠ curAddr then [.append (.addressRectangle (toRam area cfg)), .setAddr (toRam area cfg)] else []) ++
  [.flush, .dataPhase data, .respond]

/-- WRITE, R510 to R515: the bounds check comes before any event or state change. -/
def execWrite (data : List Byte) (depth : BitDepth) (area : Rect) (s : State) : Host.Outcome State Fault Refusal :=
  accept s fun s =>
    if inLogical s.par area s.cfg then
      runActs (.write data depth area) (writeActs s.cfg s.depth s.addr data depth area) s
    else s.raise (.writeArea area)

end Sys2Proof.Machine
end

