-- ==== Sys2Proof/Machine/Pixel.lean ====
section
/-! DEFINITION. The pixel format serializer (45_pixel_format.md). The field positions inside a packed pixel are the
spec's own choice, PRESUMED (log 21). -/

namespace Sys2Proof

/-- WIDTH_OF(fmt) (R551). -/
def PixelFormat.width : PixelFormat → Nat
  | .p8 => 1
  | .p16 => 2

/-- The format whose pixels a depth's data holds (R550). -/
def BitDepth.format : BitDepth → PixelFormat
  | .eight => .p8
  | .sixteen => .p16

/-- MAKE8(r, g, b) (R560): the bits above each channel's width are dropped. -/
def make8 (r g b : Nat) : C8 := ⟨BitVec.ofNat 3 r, BitVec.ofNat 3 g, BitVec.ofNat 2 b⟩

/-- RED8, GREEN8, BLUE8 (R561). -/
def C8.red (c : C8) : Nat := c.r.toNat
def C8.green (c : C8) : Nat := c.g.toNat
def C8.blue (c : C8) : Nat := c.b.toNat

/-- ENCODE8(c) (R562): red in bits 7:5, green in 4:2, blue in 1:0. -/
def encode8 (c : C8) : List Byte := [c.r ++ c.g ++ c.b]

/-- FROM_RGB_8(r, g, b) (R563). -/
def fromRgb8 (r g b : Byte) : C8 := make8 (r.toNat >>> 5) (g.toNat >>> 5) (b.toNat >>> 6)

/-- FROM_GRAY_8(l) (R564). -/
def fromGray8 (l : Byte) : C8 := make8 (l.toNat >>> 5) (l.toNat >>> 5) (l.toNat >>> 6)

/-- MAKE16(r, g, b) (R570). -/
def make16 (r g b : Nat) : C16 := ⟨BitVec.ofNat 5 r, BitVec.ofNat 6 g, BitVec.ofNat 5 b⟩

/-- RED16, GREEN16, BLUE16 (R571). -/
def C16.red (c : C16) : Nat := c.r.toNat
def C16.green (c : C16) : Nat := c.g.toNat
def C16.blue (c : C16) : Nat := c.b.toNat

/-- The 16-bit word of a colour (R572): red in bits 15:11, green in 10:5, blue in 4:0. -/
def C16.word (c : C16) : BitVec 16 := c.r ++ c.g ++ c.b

/-- ENCODE16(c) (R572): the high byte first. -/
def encode16 (c : C16) : List Byte := [c.word.extractLsb' 8 8, c.word.extractLsb' 0 8]

/-- FROM_RGB_16(r, g, b) (R573, the spec's own choice D21). -/
def fromRgb16 (r g b : Byte) : C16 := make16 (r.toNat >>> 3) (g.toNat >>> 2) (b.toNat >>> 3)

/-- FROM_GRAY_16(l) (R574, the spec's own choice D21). -/
def fromGray16 (l : Byte) : C16 := make16 (l.toNat >>> 3) (l.toNat >>> 2) (l.toNat >>> 3)

/-- A sequence of 8-bit pixels serializes to the concatenation (R581). -/
def encodeSeq8 (cs : List C8) : List Byte := cs.flatMap encode8

/-- A sequence of 16-bit pixels serializes to the concatenation (R581). -/
def encodeSeq16 (cs : List C16) : List Byte := cs.flatMap encode16

end Sys2Proof

namespace Sys2Proof.Machine

/-- MAKE8, R560. -/
def execMake8 (r g b : Nat) (s : State) : Host.Outcome State Fault Refusal :=
  accept s fun s => s.ret (.c8 (make8 r g b))

/-- ENCODE8, R562. -/
def execEncode8 (c : C8) (s : State) : Host.Outcome State Fault Refusal :=
  accept s fun s => s.ret (.bytes (encode8 c))

/-- FROM_RGB_8, R563. -/
def execFromRgb8 (r g b : Byte) (s : State) : Host.Outcome State Fault Refusal :=
  accept s fun s => s.ret (.c8 (fromRgb8 r g b))

/-- FROM_GRAY_8, R564. -/
def execFromGray8 (l : Byte) (s : State) : Host.Outcome State Fault Refusal :=
  accept s fun s => s.ret (.c8 (fromGray8 l))

/-- MAKE16, R570. -/
def execMake16 (r g b : Nat) (s : State) : Host.Outcome State Fault Refusal :=
  accept s fun s => s.ret (.c16 (make16 r g b))

/-- ENCODE16, R572. -/
def execEncode16 (c : C16) (s : State) : Host.Outcome State Fault Refusal :=
  accept s fun s => s.ret (.bytes (encode16 c))

/-- FROM_RGB_16, R573. -/
def execFromRgb16 (r g b : Byte) (s : State) : Host.Outcome State Fault Refusal :=
  accept s fun s => s.ret (.c16 (fromRgb16 r g b))

/-- FROM_GRAY_16, R574. -/
def execFromGray16 (l : Byte) (s : State) : Host.Outcome State Fault Refusal :=
  accept s fun s => s.ret (.c16 (fromGray16 l))

end Sys2Proof.Machine
end

