-- ==== Sys2Proof/Machine/Dispatch.lean ====
section
/-! DEFINITION. The dispatch: one arm per constructor of Instr. -/

namespace Sys2Proof.Machine

def exec (i : Instr) (s : State) : Host.Outcome State Fault Refusal :=
  match i with
  -- the ten commands (41_command_encoder.md section 3)
  | .masterCurrent level => Sys2Proof.Machine.execMasterCurrent level s
  | .contrast r g b => Sys2Proof.Machine.execContrast r g b s
  | .displayOn on => Sys2Proof.Machine.execDisplayOn on s
  | .remapAndColorDepth cfg d => Sys2Proof.Machine.execRemapAndColorDepth cfg d s
  | .clearWindow rect => Sys2Proof.Machine.execClearWindow rect s
  | .addressRectangle rect => Sys2Proof.Machine.execAddressRectangle rect s
  | .drawLine p0 p1 cr cg cb => Sys2Proof.Machine.execDrawLine p0 p1 cr cg cb s
  | .drawRectangle rect br bg bb fr fg fb => Sys2Proof.Machine.execDrawRectangle rect br bg bb fr fg fb s
  | .setFillEnabled e => Sys2Proof.Machine.execSetFillEnabled e s
  | .noOp => Sys2Proof.Machine.execNoOp s
  -- the requests (43_driver.md, 41_command_encoder.md section 4, 42_coordinate_mapper.md)
  | .init => Sys2Proof.Machine.execInit s
  | .write data depth area => Sys2Proof.Machine.execWrite data depth area s
  | .send cmds => Sys2Proof.Machine.execSend cmds s
  | .size => Sys2Proof.Machine.execSize s
  -- the encoder functions (41_command_encoder.md section 2)
  | .tryAppend c => Sys2Proof.Machine.execTryAppend c s
  | .flush => Sys2Proof.Machine.execFlush s
  | .appendBatched c => Sys2Proof.Machine.execAppendBatched c s
  | .batch cmds => Sys2Proof.Machine.execBatch cmds s
  -- the leaf functions (30_encoding.md, 42_coordinate_mapper.md, 45_pixel_format.md)
  | .clamp v => Sys2Proof.Machine.execClamp v s
  | .toRam r cfg => Sys2Proof.Machine.execToRam r cfg s
  | .logicalSize cfg => Sys2Proof.Machine.execLogicalSize cfg s
  | .make8 r g b => Sys2Proof.Machine.execMake8 r g b s
  | .encode8 c => Sys2Proof.Machine.execEncode8 c s
  | .fromRgb8 r g b => Sys2Proof.Machine.execFromRgb8 r g b s
  | .fromGray8 l => Sys2Proof.Machine.execFromGray8 l s
  | .make16 r g b => Sys2Proof.Machine.execMake16 r g b s
  | .encode16 c => Sys2Proof.Machine.execEncode16 c s
  | .fromRgb16 r g b => Sys2Proof.Machine.execFromRgb16 r g b s
  | .fromGray16 l => Sys2Proof.Machine.execFromGray16 l s

end Sys2Proof.Machine
end

