-- ==== Sys2Proof/Machine/Fetch.lean ====
section
/-! DEFINITION. Taking the next call from the request port (log 2). The block has no instruction fetch of its own
(20_memory.md R250). -/

namespace Sys2Proof.Machine

/-- What is left of a stretch of the command stream after its first command. -/
def leftover : List Byte → List PortItem
  | [] => []
  | b :: bs => [.word (b :: bs)]

/-- The call a port item stands for, and the items that stay in its place. -/
def fetch (p : Params) : PortItem → Except DecodeError (Instr × List PortItem)
  | .call i => .ok (i, [])
  | .word bs =>
    match decode p bs with
    | .error e => .error e
    | .ok (i, k) => .ok (i, leftover k)

/-- The stretch of the command stream that a table word stands for. -/
def fetchWord (nbits w : Nat) : PortItem := .word (tableBytes nbits w)

end Sys2Proof.Machine
end

