-- ==== Sys2Proof/WellFormed.lean ====
section
/-! DEFINITION. When an instruction's operands are values of their types: coordinates in COORD_MIN..COORD_MAX, sizes in
0..SIZE_MAX (10_state.md R106, R107). Every other operand's type is exact, so nothing else needs a check. -/

namespace Sys2Proof

/-- A coordinate in COORD_MIN..COORD_MAX (10_state.md R106). -/
def coordInRange (p : Params) (v : Int) : Bool := decide (p.coordMin ≤ v) && decide (v ≤ p.coordMax)

/-- A rectangle's fields lie in their ranges (10_state.md R106). An empty rectangle is a legal value. -/
def Rect.wf (p : Params) (r : Rect) : Bool :=
  coordInRange p r.x && coordInRange p r.y && decide (r.w ≤ p.sizeMax) && decide (r.h ≤ p.sizeMax)

/-- A point's coordinates lie in their range (10_state.md R107). -/
def Point.wf (p : Params) (q : Point) : Bool := coordInRange p q.x && coordInRange p q.y

/-- A command's operands are values of their types. -/
def Command.wf (p : Params) : Command → Bool
  | .masterCurrent _ => true
  | .contrast _ _ _ => true
  | .displayOn _ => true
  | .remapAndColorDepth _ _ => true
  | .clearWindow r => r.wf p
  | .addressRectangle r => r.wf p
  | .drawLine p0 p1 _ _ _ => p0.wf p && p1.wf p
  | .drawRectangle r _ _ _ _ _ _ => r.wf p
  | .setFillEnabled _ => true
  | .noOp => true

/-- An instruction's operands are values of their types. -/
def wellFormed (p : Params) : Instr → Bool
  | .masterCurrent _ => true
  | .contrast _ _ _ => true
  | .displayOn _ => true
  | .remapAndColorDepth _ _ => true
  | .clearWindow r => r.wf p
  | .addressRectangle r => r.wf p
  | .drawLine p0 p1 _ _ _ => p0.wf p && p1.wf p
  | .drawRectangle r _ _ _ _ _ _ => r.wf p
  | .setFillEnabled _ => true
  | .noOp => true
  | .init => true
  | .write _ _ area => area.wf p
  | .send cmds => cmds.all (Command.wf p)
  | .size => true
  | .tryAppend c => c.wf p
  | .flush => true
  | .appendBatched c => c.wf p
  | .batch cmds => cmds.all (Command.wf p)
  | .clamp _ => true
  | .toRam r _ => r.wf p
  | .logicalSize _ => true
  | .make8 _ _ _ => true
  | .encode8 _ => true
  | .fromRgb8 _ _ _ => true
  | .fromGray8 _ => true
  | .make16 _ _ _ => true
  | .encode16 _ => true
  | .fromRgb16 _ _ _ => true
  | .fromGray16 _ => true

end Sys2Proof
end

