-- ==== Sys2Proof/Machine/Step.lean ====
section
/-! DEFINITION. One step of the machine: a suspended operation resumes; an idle block takes the next call from its
request port (10_state.md R130, R131, R134). -/

namespace Sys2Proof.Machine

def step (s : State) : Host.Outcome State Fault Refusal :=
  if s.life = .faulted then .fault .blockFaulted
  else
    match s.phase with
    | .busy op point rest => resume op point rest s
    | .idle =>
      match s.port with
      | [] => .refused .noRequest
      | item :: items =>
        match fetch s.par item with
        | .error e => .refused (.undecodable e)
        | .ok (i, more) =>
          if wellFormed s.par i then exec i { s with port := more ++ items } else .refused .illFormed

/-- The state with a table word first at the request port of an idle block, so that the next step takes it. -/
def State.withFetchWord (s : State) (nbits w : Nat) : State :=
  { s with phase := .idle, port := fetchWord nbits w :: s.port }

end Sys2Proof.Machine
end

