-- ==== Sys2Proof/Safety.lean ====
section
/-! DEFINITION. What claims are stated in: when a call is accepted, running an operation on to its end, the invariant
every step keeps, the greedy cut of a batch, and the agreement of the cache with what was sent. -/

namespace Sys2Proof

def Instr.isInit : Instr → Bool
  | .init => true
  | _ => false

def Instr.isWrite : Instr → Bool
  | .write _ _ _ => true
  | _ => false

def Instr.isSend : Instr → Bool
  | .send _ => true
  | _ => false

/-- An encoder function called on its own with a command that changes the controller behind the cache (log 15). The
requests never do so unmarked: INIT and WRITE keep the cache, and SEND makes the lifecycle Indeterminate
(41_command_encoder.md R442). -/
def Instr.bypassesAlone : Instr → Bool
  | .tryAppend c => c.bypassesCache
  | .appendBatched c => c.bypassesCache
  | .batch cmds => cmds.any Command.bypassesCache
  | _ => false

/-- A coordinate's byte as 30_encoding.md R310 words it: a negative coordinate is 0, any other its value modulo 256. -/
def coordByte (v : Int) : Byte := if v < 0 then 0 else BitVec.ofInt 8 v

/-- The five initialisation commands' bytes (43_driver.md R502). -/
def initEncodings (p : Params) (cfg : OrientationConfig) : List (List Byte) :=
  [[0xA0, flags p cfg .sixteen], [0x87, BitVec.ofNat 8 (min p.mcDefault.toNat 15)],
   [0x81, p.contrastR, 0x82, p.contrastG, 0x83, p.contrastB],
   [0x25, 0, 0, BitVec.ofNat 8 (p.panelW - 1), BitVec.ofNat 8 (p.panelH - 1)], [0xAF]]

/-- RemapAndColorDepth's bytes when WRITE must send it, else none (43_driver.md R511, R516). -/
def depthBytes (p : Params) (cfg : OrientationConfig) (current wanted : BitDepth) : List Byte :=
  if wanted = current then [] else [0xA0, flags p cfg wanted]

/-- AddressRectangle's bytes when WRITE must send it, else none (43_driver.md R512, R516). -/
def addressBytes (current wanted : Rect) : List Byte :=
  if wanted = current then []
  else [0x15, coordByte wanted.x, coordByte (wanted.x + wanted.w - 1),
        0x75, coordByte wanted.y, coordByte (wanted.y + wanted.h - 1)]

/-- The encodings of the commands a WRITE sends, in order (43_driver.md R511, R512). -/
def writeEncodings (p : Params) (cfg : OrientationConfig) (curDepth : BitDepth) (curAddr : Rect) (depth : BitDepth)
    (q : Rect) : List (List Byte) :=
  [depthBytes p cfg curDepth depth, addressBytes curAddr q].filter fun e => !e.isEmpty

/-- A command in the one form a wire word stands for: the level at most 15, coordinates 0..255, a non-empty rectangle at
most 256 wide and high. -/
def Rect.canonical (r : Rect) : Bool :=
  decide (0 ≤ r.x) && decide (r.x ≤ 255) && decide (0 ≤ r.y) && decide (r.y ≤ 255) &&
  decide (1 ≤ r.w) && decide (r.w ≤ 256) && decide (1 ≤ r.h) && decide (r.h ≤ 256)

def Point.canonical (q : Point) : Bool :=
  decide (0 ≤ q.x) && decide (q.x ≤ 255) && decide (0 ≤ q.y) && decide (q.y ≤ 255)

def Command.canonical : Command → Bool
  | .masterCurrent l => decide (l.toNat ≤ 15)
  | .contrast _ _ _ => true
  | .displayOn _ => true
  | .remapAndColorDepth _ _ => true
  | .clearWindow r => r.canonical
  | .addressRectangle r => r.canonical
  | .drawLine p0 p1 _ _ _ => p0.canonical && p1.canonical
  | .drawRectangle r _ _ _ _ _ _ => r.canonical
  | .setFillEnabled _ => true
  | .noOp => true

end Sys2Proof

namespace Sys2Proof.Machine

/-- The block accepts a call: no request is in flight and it has not faulted (10_state.md R131, R134). -/
abbrev Accepts (s : State) : Prop := s.life ≠ .faulted ∧ s.phase = .idle

/-- The cache is trusted (10_state.md R132). -/
abbrev Trusted (s : State) : Prop := s.life = .ready

/-- A call has ended: nothing is suspended, and the block has not faulted, for a faulted state is never final
(60_exceptions.md R620). -/
abbrev State.Final (s : State) : Prop := s.phase = .idle ∧ s.life ≠ .faulted

/-- At most `n` further steps, only while an operation is suspended: the rest of the call under way. A faulted state
goes nowhere (60_exceptions.md R620). -/
def runCall : Nat → State → Host.Outcome State Fault Refusal
  | 0, s => .next s
  | n + 1, s =>
    match s.phase with
    | .idle => if s.life = .faulted then .fault .blockFaulted else .next s
    | .busy _ _ _ =>
      match step s with
      | .next t => runCall n t
      | .fault r => .fault r
      | .refused r => .refused r

/-- The call `i` starts in `s`, and after at most `n` further steps, all of them its own, it has ended in `t`. -/
def CompletesIn (n : Nat) (i : Instr) (s t : State) : Prop :=
  ∃ u, exec i s = .next u ∧ runCall n u = .next t ∧ t.Final

/-- The call `i` and at most `n` of its further steps. -/
def callIn (n : Nat) (i : Instr) (s : State) : Host.Outcome State Fault Refusal :=
  match exec i s with
  | .next u => runCall n u
  | .fault r => .fault r
  | .refused r => .refused r

/-- The call that the next step works on: the suspended operation's, or the one at the head of the request port. -/
def State.running (s : State) : Option Instr :=
  match s.phase with
  | .busy op _ _ => some op
  | .idle =>
    match s.port with
    | [] => none
    | item :: _ =>
      match fetch s.par item with
      | .ok (i, _) => some i
      | .error _ => none

/-- A byte string that is a concatenation of whole command encodings (10_state.md R103). -/
def WholeCommands (p : Params) (bs : List Byte) : Prop :=
  ∃ cs es, encAll p cs = .ok es ∧ bs = es.flatten

/-- What a line of pseudocode that is still to run may be, for the operation it belongs to: only INIT drives RST
(10_state.md R142), only INIT and WRITE touch the depth and the rectangle (R101, R102), a rectangle that will be cached
lies inside the panel (20_memory.md R234), and only INIT makes the lifecycle Ready (10_state.md R132). -/
def Act.Allowed (p : Params) (op : Instr) : Act → Prop
  | .setLife l =>
    (op.isInit = true ∧ (l = .initializing ∨ l = .ready)) ∨ (op.isSend = true ∧ l = .indeterminate)
  | .pin line _ => op.isInit = true ∧ line = .rst
  | .delay _ => op.isInit = true
  | .resetCache => op.isInit = true
  | .append _ => True
  | .retry _ => False
  | .flush => True
  | .setDepth _ => op.isWrite = true
  | .setAddr q => op.isWrite = true ∧ inPanel p q = true
  | .dataPhase _ => op.isWrite = true
  | .respond => True
  | .ret => True

/-- Every line still to run is allowed. -/
def ActsAllowed (p : Params) (op : Instr) (k : List Act) : Prop := ∀ a ∈ k, Act.Allowed p op a

/-- A suspended operation is at one of its resumption points: DC has the level of the transfer in flight
(20_memory.md R241), FLUSH transmits a non-empty buffer (41_command_encoder.md R403), and only a FLUSH inside
APPEND_BATCHED is followed by a second TRY_APPEND (R404). -/
def PhaseOk (s : State) : Prop :=
  match s.phase with
  | .idle => True
  | .busy op (.delay _) k => op.isInit = true ∧ ActsAllowed s.par op k
  | .busy op (.data _) k => op.isWrite = true ∧ s.dc = .high ∧ ActsAllowed s.par op k
  | .busy op .flush k =>
    s.buf ≠ [] ∧ s.dc = .low ∧
    (ActsAllowed s.par op k ∨ ∃ c k', k = .retry c :: k' ∧ ActsAllowed s.par op k')

/-- A bus transfer in the trace: under DC Low it holds whole commands, at least one byte and at most CAP bytes; no
transfer has an unknown DC level (20_memory.md R231, R241; 30_encoding.md R302). -/
def Event.Ok (p : Params) : Event → Prop
  | .bus .low bs _ => bs ≠ [] ∧ bs.length ≤ p.cap ∧ WholeCommands p bs
  | .bus .unknown _ _ => False
  | .fatal (.cmdTooLarge _) => False
  | _ => True

/-- The invariant of a conforming instance. -/
structure Inv (s : State) : Prop where
  /-- The parameters meet 00_scope.md R7. -/
  parWf : s.par.Wf
  /-- The buffer never exceeds its capacity (10_state.md R103). -/
  bufFits : s.buf.length ≤ s.par.cap
  /-- The buffer holds whole commands (R103). -/
  bufWhole : WholeCommands s.par s.buf
  /-- The cached rectangle lies inside the panel (20_memory.md R234). -/
  addrInPanel : inPanel s.par s.addr = true
  /-- A suspended operation stands at one of its resumption points (a fatal fault leaves the phase as it stood, log 10). -/
  phaseOk : s.life ≠ .faulted → PhaseOk s
  /-- Every recorded event is one a conforming instance makes; FATAL_CMD_TOO_LARGE is none (41_command_encoder.md
  R405). -/
  traceOk : ∀ e ∈ s.trace, Event.Ok s.par e

/-- The greedy cut of a batch (41_command_encoder.md R407): `pending` is what the buffer holds, and a transfer starts
before an encoding exactly when the pending bytes and the encoding together exceed the capacity. -/
def segments (cap : Nat) : List Byte → List (List Byte) → List (List Byte)
  | [], [] => []
  | b :: bs, [] => [b :: bs]
  | pending, e :: es =>
    if pending.length + e.length ≤ cap then segments cap (pending ++ e) es
    else pending :: segments cap e es

/-- The cache of a WRITE of `depth` to the mapped area `q` once the bytes that waited in the buffer and the commands it
enqueued come to `n` bytes: each value is new exactly when its command is among them (43_driver.md R511, R512: "The
update follows the enqueue"). -/
def State.enqueued (s : State) (depth : BitDepth) (q : Rect) (n : Nat) : State :=
  let d := s.buf.length + (depthBytes s.par s.cfg s.depth depth).length
  { s with
    depth := if d ≤ n then depth else s.depth
    addr := if d + (addressBytes s.addr q).length ≤ n then q else s.addr }

/-- The state a fatal fault leaves (60_exceptions.md R620): its event, the lifecycle Faulted, nothing returned. -/
def faultedBy (s : State) (f : Fatal) : State :=
  { s with trace := s.trace ++ [.fatal f], life := .faulted, result := .nothing }

/-- The events of one successful FLUSH of these bytes (41_command_encoder.md R403). -/
def flushEvents (bs : List Byte) : List Event := [.pin .dc .low .ok, .bus .low bs .ok]

/-- The events of successful FLUSHes of these segments, in order. -/
def segmentEvents (segs : List (List Byte)) : List Event := segs.flatMap flushEvents

/-- Bytes handed to the controller under a DC level. -/
def wireOf (dc : Line) (bs : List Byte) : List WireByte := bs.map (WireByte.mk dc)

/-- An event with the bytes of a transfer under DC High replaced. -/
def Event.withData (data : List Byte) : Event → Event
  | .bus .high _ r => .bus .high data r
  | .bus .low bs r => .bus .low bs r
  | .bus .unknown bs r => .bus .unknown bs r
  | .pin p lvl r => .pin p lvl r
  | .delay ms => .delay ms
  | .cancel => .cancel
  | .resp r => .resp r
  | .fatal f => .fatal f

/-! ## The cache against what was sent (43_driver.md R520) -/

def Event.isDelay : Event → Bool
  | .delay _ => true
  | .bus _ _ _ => false
  | .pin _ _ _ => false
  | .cancel => false
  | .resp _ => false
  | .fatal _ => false

/-- The events after the last Delay. Only INIT delays, and its last delay is the last thing it does before it answers
(43_driver.md R501), so in a Ready block these are the events since INIT. -/
def sinceInit (tr : List Event) : List Event := (tr.reverse.takeWhile fun e => !e.isDelay).reverse

/-- The bytes an event handed to the controller as commands: those of a transfer under DC Low that completed. -/
def Event.lowBytes : Event → List Byte
  | .bus .low bs .ok => bs
  | .bus _ _ _ => []
  | .pin _ _ _ => []
  | .delay _ => []
  | .cancel => []
  | .resp _ => []
  | .fatal _ => []

/-- The configuration and depth of the last RemapAndColorDepth of a list, or INIT's where it holds none. -/
def lastRemap (cfg : OrientationConfig) (cs : List Command) : OrientationConfig × BitDepth :=
  cs.foldl (fun last c => match c with
    | .remapAndColorDepth cfg' d => (cfg', d)
    | _ => last) (cfg, .sixteen)

/-- The rectangle of the last AddressRectangle of a list, or INIT's full panel where it holds none. -/
def lastWindow (p : Params) (cs : List Command) : Rect :=
  cs.foldl (fun last c => match c with
    | .addressRectangle r => r
    | _ => last) ⟨0, 0, p.panelW, p.panelH⟩

/-- The cache agrees with the controller commands sent since INIT: they are a list of whole commands whose last
RemapAndColorDepth (or INIT's) has the configuration and the cached depth, and whose last AddressRectangle (or INIT's
full panel) is the cached rectangle; what still waits in the buffer changes neither. -/
def Synced (s : State) : Prop :=
  ∃ sent sentBytes pending pendingBytes,
    encAll s.par sent = .ok sentBytes ∧ (sinceInit s.trace).flatMap Event.lowBytes = sentBytes.flatten ∧
    encAll s.par pending = .ok pendingBytes ∧ s.buf = pendingBytes.flatten ∧
    (∀ c ∈ pending, c.bypassesCache = false) ∧
    lastRemap s.cfg sent = (s.cfg, s.depth) ∧ lastWindow s.par sent = s.addr

/-- The state with other answers to come. -/
def State.answered (s : State) (pins : List PinAnswer) (draw : Nat) (buses : List BusAnswer)
    (delays : List DelayAnswer) : State :=
  (((s.setPins pins).setPinDraw draw).setBuses buses).setDelays delays

/-- However the environment answers, if the call under way ends with the block Ready, the cache agrees with what was
sent. Of an idle state it says: if the block is Ready, the cache agrees. -/
def Coherent (s : State) : Prop :=
  ∀ n pins draw buses delays t, runCall n (s.answered pins draw buses delays) = .next t → t.Final →
    t.life = .ready → Synced t

end Sys2Proof.Machine
end

