-- ==== Sys2Proof/Certificates/Slice0/Obligations.lean ====
section
/-! DEFINITION. The statements for the provers. Each docstring names the rules of spec/ it formalises. A state written
`{ s with … }` says the frame too: every field not named is unchanged. -/

open Sys2Proof Sys2Proof.Machine

/-! ## The ten commands -/

/-- 41_command_encoder.md R410: the level byte is min(level, 15); no register is written. That a command row run as a
call returns its encoding and appends nothing is the model's reading (log 1). -/
def Obligations.MasterCurrentReturnsLevelAtMostFifteen : Prop :=
  ∀ (level : Byte) (s : State), Accepts s →
    exec (.masterCurrent level) s =
      .next (s.setResult (.bytes [0x87, if level.toNat ≤ 15 then level else 15]))

/-- R411, R412, R418, R419: the commands without an assembled operand, each run as a call that returns its encoding
(log 1). -/
def Obligations.PlainCommandsReturnTheirBytes : Prop :=
  ∀ s : State, Accepts s →
    (∀ r g b : Byte, exec (.contrast r g b) s = .next (s.setResult (.bytes [0x81, r, 0x82, g, 0x83, b]))) ∧
    (∀ on : Bool, exec (.displayOn on) s = .next (s.setResult (.bytes [if on then 0xAF else 0xAE]))) ∧
    (∀ e : Bool, exec (.setFillEnabled e) s = .next (s.setResult (.bytes [0x26, if e then 0x01 else 0x00]))) ∧
    exec .noOp s = .next (s.setResult (.bytes [0xBC]))

/-- R413, 10_state.md R113: the flags byte is the OR of the four field codes and the depth code. The row run as a call
returns its encoding (log 1). -/
def Obligations.RemapReturnsTheOrOfItsCodes : Prop :=
  ∀ (cfg : OrientationConfig) (d : BitDepth) (s : State), Accepts s →
    exec (.remapAndColorDepth cfg d) s =
      .next (s.setResult (.bytes [0xA0,
        (if cfg.order = .rowMajor then s.par.codeRowMajor else s.par.codeColumnMajor) |||
        (if cfg.coldir = .leftToRight then s.par.codeLeftToRight else s.par.codeRightToLeft) |||
        (if cfg.rowdir = .normal then s.par.codeNormal else s.par.codeReversed) |||
        (if cfg.interleave = .interleaved then s.par.codeInterleaved else s.par.codeNotInterleaved) |||
        (if d = .eight then s.par.codeEight else s.par.codeSixteen)]))

/-- R414, 30_encoding.md R311, R312: ClearWindow's bytes, and its two fatal faults. That the row run as a call returns
its encoding, and takes the fatal fault of ENC itself, is the model's reading (log 1): R600 has these faults come
through SEND. -/
def Obligations.ClearWindowReturnsCornersOrFaults : Prop :=
  ∀ (r : Rect) (s : State), Accepts s →
    (r.w = 0 ∨ r.h = 0 → exec (.clearWindow r) s = .next (faultedBy s (.emptyRect (.clearWindow r)))) ∧
    (r.w ≠ 0 → r.h ≠ 0 →
      s.par.coordMin ≤ r.x + r.w - 1 ∧ r.x + r.w - 1 ≤ s.par.coordMax ∧
      s.par.coordMin ≤ r.y + r.h - 1 ∧ r.y + r.h - 1 ≤ s.par.coordMax →
      exec (.clearWindow r) s = .next (s.setResult (.bytes
        [0x25, coordByte r.x, coordByte r.y, coordByte (r.x + r.w - 1), coordByte (r.y + r.h - 1)]))) ∧
    (r.w ≠ 0 → r.h ≠ 0 →
      ¬(s.par.coordMin ≤ r.x + r.w - 1 ∧ r.x + r.w - 1 ≤ s.par.coordMax ∧
        s.par.coordMin ≤ r.y + r.h - 1 ∧ r.y + r.h - 1 ≤ s.par.coordMax) →
      exec (.clearWindow r) s = .next (faultedBy s (.coordRange (.clearWindow r))))

/-- R415, 30_encoding.md R311, R312: AddressRectangle's bytes, and its two fatal faults; the cached rectangle is not
touched. The row run as a call is the model's reading (log 1), as for ClearWindow. -/
def Obligations.AddressRectangleReturnsRangesOrFaults : Prop :=
  ∀ (r : Rect) (s : State), Accepts s →
    (r.w = 0 ∨ r.h = 0 → exec (.addressRectangle r) s = .next (faultedBy s (.emptyRect (.addressRectangle r)))) ∧
    (r.w ≠ 0 → r.h ≠ 0 →
      s.par.coordMin ≤ r.x + r.w - 1 ∧ r.x + r.w - 1 ≤ s.par.coordMax ∧
      s.par.coordMin ≤ r.y + r.h - 1 ∧ r.y + r.h - 1 ≤ s.par.coordMax →
      exec (.addressRectangle r) s = .next (s.setResult (.bytes
        [0x15, coordByte r.x, coordByte (r.x + r.w - 1), 0x75, coordByte r.y, coordByte (r.y + r.h - 1)]))) ∧
    (r.w ≠ 0 → r.h ≠ 0 →
      ¬(s.par.coordMin ≤ r.x + r.w - 1 ∧ r.x + r.w - 1 ≤ s.par.coordMax ∧
        s.par.coordMin ≤ r.y + r.h - 1 ∧ r.y + r.h - 1 ≤ s.par.coordMax) →
      exec (.addressRectangle r) s = .next (faultedBy s (.coordRange (.addressRectangle r))))

/-- R416: a point has no corner sum, so DrawLine never faults. The row run as a call returns its encoding (log 1). -/
def Obligations.DrawLineReturnsPointsAndColour : Prop :=
  ∀ (p0 p1 : Point) (cr cg cb : Byte) (s : State), Accepts s →
    exec (.drawLine p0 p1 cr cg cb) s = .next (s.setResult (.bytes
      [0x21, coordByte p0.x, coordByte p0.y, coordByte p1.x, coordByte p1.y, cr, cg, cb]))

/-- R417, 30_encoding.md R311: an empty rectangle is encoded as it stands; a corner out of range is fatal. The row run
as a call is the model's reading (log 1), as for ClearWindow. -/
def Obligations.DrawRectangleReturnsCornersOrFaults : Prop :=
  ∀ (r : Rect) (br bg bb fr fg fb : Byte) (s : State), Accepts s →
    (s.par.coordMin ≤ r.x + r.w - 1 ∧ r.x + r.w - 1 ≤ s.par.coordMax ∧
      s.par.coordMin ≤ r.y + r.h - 1 ∧ r.y + r.h - 1 ≤ s.par.coordMax →
      exec (.drawRectangle r br bg bb fr fg fb) s = .next (s.setResult (.bytes
        [0x22, coordByte r.x, coordByte r.y, coordByte (r.x + r.w - 1), coordByte (r.y + r.h - 1),
         br, bg, bb, fr, fg, fb]))) ∧
    (¬(s.par.coordMin ≤ r.x + r.w - 1 ∧ r.x + r.w - 1 ≤ s.par.coordMax ∧
        s.par.coordMin ≤ r.y + r.h - 1 ∧ r.y + r.h - 1 ≤ s.par.coordMax) →
      exec (.drawRectangle r br bg bb fr fg fb) s =
        .next (faultedBy s (.coordRange (.drawRectangle r br bg bb fr fg fb))))

/-- 30_encoding.md R310: a negative coordinate gives 0, any other its value modulo 256. -/
def Obligations.ClampIsZeroBelowAndWrapsAbove : Prop :=
  ∀ (v : Int) (s : State), Accepts s →
    ∃ b : Byte, exec (.clamp v) s = .next (s.setResult (.byte b)) ∧
      (v < 0 → b = 0) ∧ (0 ≤ v → (b.toNat : Int) = v % 256)

/-! ## Encoding and decoding -/

/-- 30_encoding.md R301, R303 (marked derived there): the decoder reads every command in canonical form back from its
encoding, whatever bytes follow. That it reads corner bytes as the canonical rectangle is the model's (log 16): clamp and
the level's clamp lose the other forms, and the bytes of an empty DrawRectangle are those of a larger one. -/
def Obligations.DecodeOfEncodeIsTheCommand : Prop :=
  ∀ (p : Params) (c : Command) (k : List Byte), p.CodesWf → p.RangesWf → c.canonical = true →
    ∃ b, enc p c = .ok b ∧ encode p c.toInstr = some b ∧ decode p (b ++ k) = .ok (c.toInstr, k)

/-- 30_encoding.md R301: what the decoder accepts is the encoding of what it reads, so no other byte string is taken
for a command; a level byte above 15 is one the block never sends (R315). The reader itself, its rectangles and the level
it accepts are the model's (log 16): the block decodes nothing (R321). -/
def Obligations.EncodeOfDecodeIsTheWord : Prop :=
  ∀ (p : Params) (bs k : List Byte) (i : Instr), p.RangesWf → decode p bs = .ok (i, k) →
    (∀ level : Byte, i = .masterCurrent level → level.toNat ≤ 15) →
    ∃ b, encode p i = some b ∧ bs = b ++ k

/-- 30_encoding.md R303 (marked derived there): a concatenation of encodings is split back into its commands from left
to right. That the operands come back too, for canonical commands, rests on the reader of log 16. -/
def Obligations.StreamSplitsIntoItsCommands : Prop :=
  ∀ (p : Params) (cs : List Command) (es : List (List Byte)), p.CodesWf → p.RangesWf →
    (∀ c ∈ cs, c.canonical = true) → encAll p cs = .ok es →
    decodeStream p es.flatten.length es.flatten = .ok cs

/-- 30_encoding.md R301, R320: words written out from the formats, one of each command; RemapAndColorDepth's under the
adopted codes (log 3), and bytes that begin no command. Reading corner bytes as that rectangle, and rejecting a bad
flags byte, a bad Boolean or an inner opcode at the start by name, are the model's (log 16). -/
def Obligations.WrittenOutWordsDecode : Prop :=
  decode Params.adopted [0x87, 0x05] = .ok (.masterCurrent 5, []) ∧
  decode Params.adopted [0x81, 0x80, 0x82, 0x50, 0x83, 0x80] = .ok (.contrast 0x80 0x50 0x80, []) ∧
  decode Params.adopted [0xAE] = .ok (.displayOn false, []) ∧
  decode Params.adopted [0xAF] = .ok (.displayOn true, []) ∧
  decode Params.adopted [0xA0, 0x72] = .ok (.remapAndColorDepth (Preset.adopted .rot0) .sixteen, []) ∧
  decode Params.adopted [0x25, 0x00, 0x0A, 0x01, 0x0B] = .ok (.clearWindow ⟨0, 10, 2, 2⟩, []) ∧
  decode Params.adopted [0x15, 0x20, 0x5F, 0x75, 0x00, 0x3F] = .ok (.addressRectangle ⟨32, 0, 64, 64⟩, []) ∧
  decode Params.adopted [0x21, 0x00, 0x2C, 0x05, 0x05, 0x01, 0x02, 0x03] =
    .ok (.drawLine ⟨0, 44⟩ ⟨5, 5⟩ 1 2 3, []) ∧
  decode Params.adopted [0x22, 0x0A, 0x0A, 0x1D, 0x13, 1, 2, 3, 4, 5, 6] =
    .ok (.drawRectangle ⟨10, 10, 20, 10⟩ 1 2 3 4 5 6, []) ∧
  decode Params.adopted [0x26, 0x01, 0xBC] = .ok (.setFillEnabled true, [0xBC]) ∧
  decode Params.adopted [0xBC] = .ok (.noOp, []) ∧
  decode Params.adopted [0xA0, 0x04] = .error (.badFlags 4) ∧
  decode Params.adopted [0x26, 0x02] = .error (.badBoolean 2) ∧
  decode Params.adopted [0x00] = .error (.unknownOpcode 0) ∧
  decode Params.adopted [0x75, 0x00, 0x3F] = .error (.innerOpcode 0x75)

/-- 10_state.md R113: with disjoint codes FLAGS is injective on (cfg, d). -/
def Obligations.FlagsIsInjective : Prop :=
  ∀ (p : Params) (c c' : OrientationConfig) (d d' : BitDepth), p.CodesWf →
    flags p c d = flags p c' d' → c = c' ∧ d = d'

/-- 10_state.md R113's table of bits, under the adopted codes (log 3). -/
def Obligations.AdoptedFlagBits : Prop :=
  ∀ (c : OrientationConfig) (d : BitDepth),
    let f := flags Params.adopted c d
    f.getLsbD 0 = decide (c.order = .columnMajor) ∧ f.getLsbD 1 = decide (c.coldir = .rightToLeft) ∧
    f.getLsbD 2 = false ∧ f.getLsbD 3 = false ∧ f.getLsbD 4 = decide (c.rowdir = .reversed) ∧
    f.getLsbD 5 = decide (c.interleave = .interleaved) ∧ f.getLsbD 6 = decide (d = .sixteen) ∧ f.getLsbD 7 = false

/-! ## The encoder functions and SEND -/

/-- 41_command_encoder.md R402: the encoding is added at the end, or nothing is changed. That TRY_APPEND is a call of
its own that answers on no port is the model's reading (log 15). -/
def Obligations.TryAppendAppendsWholeOrNotAtAll : Prop :=
  ∀ (c : Command) (s : State), Accepts s →
    (∀ b, enc s.par c = .ok b → s.buf.length + b.length ≤ s.par.cap →
      exec (.tryAppend c) s = .next { s with buf := s.buf ++ b, result := .fits true }) ∧
    (∀ b, enc s.par c = .ok b → s.par.cap < s.buf.length + b.length →
      exec (.tryAppend c) s = .next { s with result := .fits false }) ∧
    (∀ f, enc s.par c = .error f → exec (.tryAppend c) s = .next (faultedBy s f))

/-- 41_command_encoder.md R403, 60_exceptions.md R610: no event for an empty buffer; else DC Low, one transfer of the
whole buffer, and the buffer is emptied; a failed PinSet or BusWrite leaves the buffer as it was and ends the request.
The last clause is of a PinSet whose answer is free (log 8). That a FLUSH called alone answers on no port when it returns
and fails as a request does is the model's reading (log 15). -/
def Obligations.FlushTransmitsTheWholeBufferOrKeepsIt : Prop :=
  ∀ (s : State) (e : EnvError) (n : Nat) (ps : List PinAnswer) (as : List BusAnswer), Accepts s →
    (s.buf = [] → exec .flush s = .next { s with result := .unit }) ∧
    (s.buf ≠ [] → s.pins = .ok :: ps → s.buses = .ok :: as →
      CompletesIn 1 .flush s
        { s with
          pins := ps, buses := as, buf := [], dc := .low, result := .unit,
          trace := s.trace ++ flushEvents s.buf, wire := s.wire ++ wireOf .low s.buf }) ∧
    (s.buf ≠ [] → s.pins = .err e :: ps →
      exec .flush s = .next
        { s with
          pins := ps, dc := .unknown, life := .indeterminate, result := .err (.pin e),
          trace := s.trace ++ [.pin .dc .low (.err e), .resp (.err (.pin e))] }) ∧
    (s.buf ≠ [] → s.pins = .ok :: ps → s.buses = .err e n :: as →
      CompletesIn 1 .flush s
        { s with
          pins := ps, buses := as, dc := .low, life := .indeterminate, result := .err (.bus e),
          trace := s.trace ++ [.pin .dc .low .ok, .bus .low s.buf (.err e), .resp (.err (.bus e))],
          wire := s.wire ++ wireOf .low (s.buf.take n) }) ∧
    (s.buf ≠ [] → s.pins = [] → s.buses = .ok :: as →
      match Config.freePin s.pinDraw with
      | .ok =>
        CompletesIn 1 .flush s
          { s with
            pinDraw := s.pinDraw + 1, buses := as, buf := [], dc := .low, result := .unit,
            trace := s.trace ++ flushEvents s.buf, wire := s.wire ++ wireOf .low s.buf }
      | .err e' =>
        exec .flush s = .next
          { s with
            pinDraw := s.pinDraw + 1, dc := .unknown, life := .indeterminate, result := .err (.pin e'),
            trace := s.trace ++ [.pin .dc .low (.err e'), .resp (.err (.pin e'))] })

/-- 41_command_encoder.md R404: a command that fits is appended; one that would overflow triggers exactly one flush and
is then appended. That APPEND_BATCHED is a call of its own that answers on no port is the model's reading (log 15). -/
def Obligations.AppendBatchedFlushesAtMostOnce : Prop :=
  ∀ (c : Command) (b : List Byte) (s : State) (ps : List PinAnswer) (as : List BusAnswer), Accepts s →
    enc s.par c = .ok b →
    (s.buf.length + b.length ≤ s.par.cap →
      exec (.appendBatched c) s = .next { s with buf := s.buf ++ b, result := .unit }) ∧
    (s.par.cap < s.buf.length + b.length → b.length ≤ s.par.cap → s.pins = .ok :: ps → s.buses = .ok :: as →
      CompletesIn 1 (.appendBatched c) s
        { s with
          pins := ps, buses := as, buf := b, dc := .low, result := .unit,
          trace := s.trace ++ flushEvents s.buf, wire := s.wire ++ wireOf .low s.buf })

/-- 60_exceptions.md R622: a command longer than the capacity is fatal, after the flush of what was pending. The trace is
that of an APPEND_BATCHED called on its own (log 15). -/
def Obligations.CommandLongerThanCapacityIsFatal : Prop :=
  ∀ (c : Command) (b : List Byte) (s : State) (ps : List PinAnswer) (as : List BusAnswer), Accepts s →
    enc s.par c = .ok b → s.par.cap < b.length →
    (s.buf = [] → exec (.appendBatched c) s = .next (faultedBy s (.cmdTooLarge c))) ∧
    (s.buf ≠ [] → s.pins = .ok :: ps → s.buses = .ok :: as →
      ∃ u t, exec (.appendBatched c) s = .next u ∧ step u = .next t ∧ t.life = .faulted ∧ t.buf = [] ∧
        t.result = .nothing ∧ t.trace = s.trace ++ flushEvents s.buf ++ [.fatal (.cmdTooLarge c)] ∧
        t.wire = s.wire ++ wireOf .low s.buf ∧ t.depth = s.depth ∧ t.addr = s.addr ∧ t.cfg = s.cfg ∧
        t.rst = s.rst ∧ t.dc = .low)

/-- 41_command_encoder.md R406, R407 (marked derived there): with every primitive answering Ok, BATCH sends exactly what
was pending and then its commands' encodings, cut greedily, each transfer under DC Low, and leaves the buffer empty.
That BATCH is a call of its own that answers on no port is the model's reading (log 15). -/
def Obligations.BatchIsCutGreedily : Prop :=
  ∀ (cmds : List Command) (es : List (List Byte)) (s : State) (ps : List PinAnswer) (as : List BusAnswer),
    Accepts s → 11 ≤ s.par.cap → encAll s.par cmds = .ok es →
    let segs := segments s.par.cap s.buf es
    s.pins = List.replicate segs.length .ok ++ ps → s.buses = List.replicate segs.length .ok ++ as →
    CompletesIn segs.length (.batch cmds) s
      { s with
        pins := ps, buses := as, buf := [], dc := if segs = [] then s.dc else .low, result := .unit,
        trace := s.trace ++ segmentEvents segs, wire := s.wire ++ wireOf .low (s.buf ++ es.flatten) }

/-- 41_command_encoder.md R407 (marked derived there): the greedy cut loses, adds and reorders no byte, and every
transfer holds at least one and at most CAP bytes. -/
def Obligations.GreedyCutIsExactAndWithinCapacity : Prop :=
  ∀ (p : Params) (cmds : List Command) (es : List (List Byte)) (pending : List Byte),
    11 ≤ p.cap → pending.length ≤ p.cap → encAll p cmds = .ok es →
    (segments p.cap pending es).flatten = pending ++ es.flatten ∧
    ∀ seg ∈ segments p.cap pending es, seg ≠ [] ∧ seg.length ≤ p.cap

/-- 41_command_encoder.md R441, 60_exceptions.md R641: the first command of the list whose encoding faults stops SEND
before any event. -/
def Obligations.SendFaultsBeforeAnyEvent : Prop :=
  ∀ (pre post : List Command) (c : Command) (es : List (List Byte)) (f : Fatal) (s : State), Accepts s →
    encAll s.par pre = .ok es → enc s.par c = .error f →
    exec (.send (pre ++ c :: post)) s = .next (faultedBy s f)

/-- 41_command_encoder.md R441, R442, R443: SEND batches its commands, answers Ok, never touches the cached depth and
rectangle, makes the lifecycle Indeterminate when a command bypassed the cache, and inserts no delay. -/
def Obligations.SendBatchesAndKeepsTheCache : Prop :=
  ∀ (cmds : List Command) (es : List (List Byte)) (s : State) (ps : List PinAnswer) (as : List BusAnswer),
    Accepts s → 11 ≤ s.par.cap → encAll s.par cmds = .ok es →
    let segs := segments s.par.cap s.buf es
    s.pins = List.replicate segs.length .ok ++ ps → s.buses = List.replicate segs.length .ok ++ as →
    CompletesIn segs.length (.send cmds) s
      { s with
        pins := ps, buses := as, buf := [], dc := if segs = [] then s.dc else .low, result := .unit,
        life := if cmds.any (fun c =>
            match c with
            | .remapAndColorDepth _ _ => true
            | .addressRectangle _ => true
            | _ => false) then .indeterminate else s.life,
        trace := s.trace ++ segmentEvents segs ++ [.resp .ok],
        wire := s.wire ++ wireOf .low (s.buf ++ es.flatten) }

/-! ## The coordinate mapper -/

/-- 42_coordinate_mapper.md R450: the identity when row-major, else the transpose. -/
def Obligations.ToRamIsIdentityOrTranspose : Prop :=
  ∀ (r : Rect) (cfg : OrientationConfig) (s : State), Accepts s →
    (cfg.order = .rowMajor → exec (.toRam r cfg) s = .next (s.setResult (.rect r))) ∧
    (cfg.order = .columnMajor → exec (.toRam r cfg) s = .next (s.setResult (.rect ⟨r.y, r.x, r.h, r.w⟩)))

/-- 42_coordinate_mapper.md R452, R455: the panel size, swapped when column-major; SIZE asks it of the instance's own
configuration, without an event. -/
def Obligations.SizeIsSwappedWhenColumnMajor : Prop :=
  ∀ (cfg : OrientationConfig) (s : State), Accepts s →
    (cfg.order = .rowMajor →
      exec (.logicalSize cfg) s = .next (s.setResult (.size s.par.panelW s.par.panelH))) ∧
    (cfg.order = .columnMajor →
      exec (.logicalSize cfg) s = .next (s.setResult (.size s.par.panelH s.par.panelW))) ∧
    (s.cfg.order = .rowMajor → exec .size s = .next (s.setResult (.size s.par.panelW s.par.panelH))) ∧
    (s.cfg.order = .columnMajor → exec .size s = .next (s.setResult (.size s.par.panelH s.par.panelW)))

/-- 42_coordinate_mapper.md R451 (marked derived there), R454: TO_RAM is an involution and reads only the pixel order. -/
def Obligations.ToRamIsAnInvolutionOfThePixelOrder : Prop :=
  ∀ (r : Rect) (cfg cfg' : OrientationConfig),
    toRam (toRam r cfg) cfg = r ∧ (cfg.order = cfg'.order → toRam r cfg = toRam r cfg')

/-- 42_coordinate_mapper.md R453 (marked derived there): a rectangle is inside the logical bounds exactly when its image
is inside the panel, and the pixel count is kept. -/
def Obligations.InLogicalExactlyWhenImageInPanel : Prop :=
  ∀ (p : Params) (r : Rect) (cfg : OrientationConfig),
    let q := toRam r cfg
    (inLogical p r cfg = true ↔
      0 < q.w ∧ 0 < q.h ∧ 0 ≤ q.x ∧ 0 ≤ q.y ∧ q.x + q.w ≤ p.panelW ∧ q.y + q.h ≤ p.panelH) ∧
    q.w * q.h = r.w * r.h

/-! ## INIT -/

/-- 43_driver.md R501, and R502 and 10_state.md R161 (marked derived there): with every primitive answering Ok, INIT
gives the reset pulse, sends the initialisation bytes (after stale ones only when INIT_CLEARS_BUFFER is false), waits,
and leaves the cache reset and the lifecycle Ready. Params.Wf holds the ranges of log 23 besides R7's constraints. -/
def Obligations.InitLeavesTheBlockReady : Prop :=
  ∀ (s : State) (ps : List PinAnswer) (as : List BusAnswer) (ds : List DelayAnswer), Accepts s → s.par.Wf →
    let stale := if s.par.initClearsBuffer then [] else s.buf
    let segs := segments s.par.cap stale (initEncodings s.par s.cfg)
    s.pins = List.replicate (segs.length + 2) .ok ++ ps → s.buses = List.replicate segs.length .ok ++ as →
    s.delays = List.replicate 3 .elapsed ++ ds →
    CompletesIn (segs.length + 3) .init s
      { s with
        depth := .sixteen, addr := ⟨0, 0, s.par.panelW, s.par.panelH⟩, buf := [], dc := .low, rst := .high,
        life := .ready, pins := ps, buses := as, delays := ds, result := .unit,
        trace := s.trace ++
          [.pin .rst .low .ok, .delay s.par.tRstLow, .pin .rst .high .ok, .delay s.par.tRstHigh] ++
          segmentEvents segs ++ [.delay s.par.tClear, .resp .ok],
        wire := s.wire ++ wireOf .low (stale ++ (initEncodings s.par s.cfg).flatten) }

/-- 43_driver.md R502 (marked derived there) under the adopted parameters (log 3) and ROT0: the five initialisation
commands encode to R502's sixteen bytes, and with every primitive answering Ok INIT sends exactly these, as one
transfer. -/
def Obligations.AdoptedInitIsSixteenBytesInOneTransfer : Prop :=
  encAll Params.adopted (initCommands Params.adopted (Preset.adopted .rot0)) =
    .ok [[0xA0, 0x72], [0x87, 0x05], [0x81, 0x80, 0x82, 0x50, 0x83, 0x80], [0x25, 0x00, 0x00, 0x5F, 0x3F], [0xAF]] ∧
  ∀ (s : State) (ps : List PinAnswer) (as : List BusAnswer) (ds : List DelayAnswer), Accepts s →
    s.par = Params.adopted → s.cfg = Preset.adopted .rot0 →
    s.pins = .ok :: .ok :: .ok :: ps → s.buses = .ok :: as → s.delays = .elapsed :: .elapsed :: .elapsed :: ds →
    let bytes : List Byte :=
      [0xA0, 0x72, 0x87, 0x05, 0x81, 0x80, 0x82, 0x50, 0x83, 0x80, 0x25, 0x00, 0x00, 0x5F, 0x3F, 0xAF]
    CompletesIn 4 .init s
      { s with
        depth := .sixteen, addr := ⟨0, 0, 96, 64⟩, buf := [], dc := .low, rst := .high, life := .ready,
        pins := ps, buses := as, delays := ds, result := .unit,
        trace := s.trace ++ [.pin .rst .low .ok, .delay 1, .pin .rst .high .ok, .delay 1,
          .pin .dc .low .ok, .bus .low bytes .ok, .delay 1, .resp .ok],
        wire := s.wire ++ wireOf .low bytes }

/-- 60_exceptions.md R610, 10_state.md R142: a failed drive of RST ends INIT, leaves the line unknown and the cache as
it was. The failed drive of DC in a FLUSH has a statement of its own, FailedFlushEndsEveryCaller. -/
def Obligations.FailedResetPulseLeavesTheCache : Prop :=
  ∀ (s : State) (e : EnvError) (ps : List PinAnswer) (ds : List DelayAnswer), Accepts s →
    (s.pins = .err e :: ps →
      exec .init s = .next
        { s with
          pins := ps, rst := .unknown, life := .indeterminate, result := .err (.pin e),
          trace := s.trace ++ [.pin .rst .low (.err e), .resp (.err (.pin e))] }) ∧
    (s.pins = .ok :: .err e :: ps → s.delays = .elapsed :: ds →
      CompletesIn 1 .init s
        { s with
          pins := ps, delays := ds, rst := .unknown, life := .indeterminate, result := .err (.pin e),
          trace := s.trace ++ [.pin .rst .low .ok, .delay s.par.tRstLow, .pin .rst .high (.err e),
            .resp (.err (.pin e))] })

/-! ## WRITE -/

/-- 43_driver.md R510: an area that is empty or not inside the logical bounds is fatal, before any event or change. -/
def Obligations.WriteOutsideLogicalBoundsIsFatal : Prop :=
  ∀ (data : List Byte) (depth : BitDepth) (area : Rect) (s : State), Accepts s →
    ¬(0 < area.w ∧ 0 < area.h ∧ 0 ≤ area.x ∧ 0 ≤ area.y ∧
      area.x + area.w ≤ (if s.cfg.order = .rowMajor then s.par.panelW else s.par.panelH) ∧
      area.y + area.h ≤ (if s.cfg.order = .rowMajor then s.par.panelH else s.par.panelW)) →
    exec (.write data depth area) s = .next (faultedBy s (.writeArea area))

/-- 43_driver.md R516 (marked derived there): WRITE's four event shapes from an empty buffer, whatever the data's length. -/
def Obligations.WriteHasFourEventShapes : Prop :=
  ∀ (data : List Byte) (depth : BitDepth) (area : Rect) (s : State) (ps : List PinAnswer) (as : List BusAnswer),
    Accepts s → s.par.Wf → s.buf = [] → inLogical s.par area s.cfg = true →
    let q := toRam area s.cfg
    let cmd := depthBytes s.par s.cfg s.depth depth ++ addressBytes s.addr q
    let n := if cmd = [] then 0 else 1
    s.pins = List.replicate (n + 1) .ok ++ ps → s.buses = List.replicate (n + 1) .ok ++ as →
    CompletesIn (n + 1) (.write data depth area) s
      { s with
        depth := depth, addr := q, dc := .high, pins := ps, buses := as, result := .unit,
        trace := s.trace ++ (if cmd = [] then [] else flushEvents cmd) ++
          [.pin .dc .high .ok, .bus .high data .ok, .resp .ok],
        wire := s.wire ++ wireOf .low cmd ++ wireOf .high data }

/-- 43_driver.md R515: whatever the environment answered and whatever was pending, a WRITE that returned Ok sent
the pending bytes, RemapAndColorDepth exactly when the depth differed and AddressRectangle exactly when the mapped area
differed from the cached ones, then the data; the cache holds the values asked for. That the cached ones are those most
recently sent is CacheIsWhatWasLastSentWhileReady. -/
def Obligations.WriteThatReturnsOkSentExactlyWhatDiffered : Prop :=
  ∀ (n : Nat) (data : List Byte) (depth : BitDepth) (area : Rect) (s t : State), s.par.Wf →
    CompletesIn n (.write data depth area) s t → t.result = .unit →
    let q := toRam area s.cfg
    t.depth = depth ∧ t.addr = q ∧ t.buf = [] ∧ t.dc = .high ∧ t.rst = s.rst ∧ t.life = s.life ∧ t.cfg = s.cfg ∧
    t.wire = s.wire ++ wireOf .low (s.buf ++ depthBytes s.par s.cfg s.depth depth ++ addressBytes s.addr q) ++
      wireOf .high data

/-- 43_driver.md R520: after a WRITE that returned Ok, a second one with the same depth and area makes only the
data-phase transfer. -/
def Obligations.RepeatedWriteSendsDataOnly : Prop :=
  ∀ (n : Nat) (data data' : List Byte) (depth : BitDepth) (area : Rect) (s t : State)
    (ps : List PinAnswer) (as : List BusAnswer), s.par.Wf →
    CompletesIn n (.write data depth area) s t → t.result = .unit →
    t.pins = .ok :: ps → t.buses = .ok :: as →
    CompletesIn 1 (.write data' depth area) t
      { t with
        pins := ps, buses := as,
        trace := t.trace ++ [.pin .dc .high .ok, .bus .high data' .ok, .resp .ok],
        wire := t.wire ++ wireOf .high data' }

/-- 43_driver.md R521 (marked derived there), R511, R512: what each failing primitive of a WRITE leaves, whatever waited
in the buffer. The first two clauses are any FLUSH of commands, those inside APPEND_BATCHED and the final one: the cache
holds the new value of a command exactly when that command was enqueued by then, and the bytes of that FLUSH stay in the
buffer. The last two are the data phase. -/
def Obligations.FailedWriteLeavesADefiniteState : Prop :=
  ∀ (data : List Byte) (depth : BitDepth) (area : Rect) (s : State) (e : EnvError) (m : Nat)
    (ps : List PinAnswer) (as : List BusAnswer),
    Accepts s → s.par.Wf → inLogical s.par area s.cfg = true →
    let q := toRam area s.cfg
    let segs := segments s.par.cap s.buf (writeEncodings s.par s.cfg s.depth s.addr depth q)
    (∀ (before after : List (List Byte)) (seg : List Byte), segs = before ++ seg :: after →
      let n := before.length
      let reached := s.enqueued depth q (before.flatten ++ seg).length
      (s.pins = List.replicate n .ok ++ .err e :: ps → s.buses = List.replicate n .ok ++ as →
        CompletesIn n (.write data depth area) s
          { reached with
            buf := seg, dc := .unknown, life := .indeterminate, pins := ps, buses := as, result := .err (.pin e),
            trace := s.trace ++ segmentEvents before ++ [.pin .dc .low (.err e), .resp (.err (.pin e))],
            wire := s.wire ++ wireOf .low before.flatten }) ∧
      (s.pins = List.replicate (n + 1) .ok ++ ps → s.buses = List.replicate n .ok ++ .err e m :: as →
        CompletesIn (n + 1) (.write data depth area) s
          { reached with
            buf := seg, dc := .low, life := .indeterminate, pins := ps, buses := as, result := .err (.bus e),
            trace := s.trace ++ segmentEvents before ++
              [.pin .dc .low .ok, .bus .low seg (.err e), .resp (.err (.bus e))],
            wire := s.wire ++ wireOf .low (before.flatten ++ seg.take m) })) ∧
    (s.pins = List.replicate segs.length .ok ++ .err e :: ps → s.buses = List.replicate segs.length .ok ++ as →
      CompletesIn segs.length (.write data depth area) s
        { s with
          depth := depth, addr := q, buf := [], dc := .unknown, life := .indeterminate, pins := ps, buses := as,
          result := .err (.pin e),
          trace := s.trace ++ segmentEvents segs ++ [.pin .dc .high (.err e), .resp (.err (.pin e))],
          wire := s.wire ++ wireOf .low segs.flatten }) ∧
    (s.pins = List.replicate (segs.length + 1) .ok ++ ps →
      s.buses = List.replicate segs.length .ok ++ .err e m :: as →
      CompletesIn (segs.length + 1) (.write data depth area) s
        { s with
          depth := depth, addr := q, buf := [], dc := .high, life := .indeterminate, pins := ps, buses := as,
          result := .err (.bus e),
          trace := s.trace ++ segmentEvents segs ++
            [.pin .dc .high .ok, .bus .high data (.err e), .resp (.err (.bus e))],
          wire := s.wire ++ wireOf .low segs.flatten ++ wireOf .high (data.take m) })

/-- 20_memory.md R210: WRITE does not look at its data. Two calls that differ only in the data, and get the same answers,
go the same way to their end: the same stops, registers, answers used, events and bytes handed over, but for the bytes of
the data transfer itself. -/
def Obligations.WriteIgnoresItsDataUntilTheDataPhase : Prop :=
  ∀ (n : Nat) (data data' : List Byte) (depth : BitDepth) (area : Rect) (s : State),
    match callIn n (.write data depth area) s, callIn n (.write data' depth area) s with
    | .next t, .next t' =>
      (∃ (es : List Event) (ws : List WireByte) (k : Nat),
        t.trace = s.trace ++ es.map (Event.withData data) ∧ t'.trace = s.trace ++ es.map (Event.withData data') ∧
        t.wire = s.wire ++ ws ++ wireOf .high (data.take k) ∧
        t'.wire = s.wire ++ ws ++ wireOf .high (data'.take k)) ∧
      (t.phase = .idle ↔ t'.phase = .idle) ∧
      { t with phase := .idle, trace := [], wire := [] } = { t' with phase := .idle, trace := [], wire := [] }
    | .fault r, .fault r' => r = r'
    | .refused r, .refused r' => r = r'
    | _, _ => False

/-! ## Failures, cancellation, hangs, refusals -/

/-- 60_exceptions.md R610, 20_memory.md R231: a BusWrite that returns Err ends the request; some leading bytes were
delivered. -/
def Obligations.FailedTransferEndsTheRequest : Prop :=
  ∀ (s : State) (op : Instr) (k : List Act) (e : EnvError) (n : Nat) (as : List BusAnswer) (bytes : List Byte),
    s.life ≠ .faulted → s.buses = .err e n :: as →
    s.phase = .busy op (.data bytes) k ∨ (s.phase = .busy op .flush k ∧ bytes = s.buf) →
    step s = .next
      { s with
        buses := as, phase := .idle, life := .indeterminate, result := .err (.bus e),
        trace := s.trace ++ [.bus s.dc bytes (.err e), .resp (.err (.bus e))],
        wire := s.wire ++ wireOf s.dc (bytes.take n) }

/-- 60_exceptions.md R630: a cancellation at a resumption point records CancelEv, returns nothing, makes the lifecycle
Indeterminate and leaves every other register. That a cancelled transfer's event is recorded with the mark `cancelled`
is the model's choice (log 12). -/
def Obligations.CancellationLeavesEveryOtherRegister : Prop :=
  ∀ (s : State) (op : Instr) (k : List Act), s.life ≠ .faulted →
    (∀ (ms : Nat) (ds : List DelayAnswer), s.phase = .busy op (.delay ms) k → s.delays = .cancel :: ds →
      step s = .next
        { s with
          delays := ds, phase := .idle, life := .indeterminate, result := .nothing,
          trace := s.trace ++ [.cancel] }) ∧
    (∀ (bytes : List Byte) (n : Nat) (as : List BusAnswer),
      s.phase = .busy op (.data bytes) k ∨ (s.phase = .busy op .flush k ∧ bytes = s.buf) →
      s.buses = .cancel n :: as →
      step s = .next
        { s with
          buses := as, phase := .idle, life := .indeterminate, result := .nothing,
          trace := s.trace ++ [.bus s.dc bytes .cancelled, .cancel],
          wire := s.wire ++ wireOf s.dc (bytes.take n) })

/-- 60_exceptions.md R631: there is no step out of a resumption point without an answer of the environment. R631 speaks
of a BusWrite; that a Delay without an answer has no step either, and the fault's name, are log 9. -/
def Obligations.UnansweredAwaitHasNoStep : Prop :=
  ∀ (s : State) (op : Instr) (pt : AwaitPoint) (k : List Act), s.life ≠ .faulted → s.phase = .busy op pt k →
    (match pt with
     | .delay _ => s.delays = []
     | .flush => s.buses = []
     | .data _ => s.buses = []) → step s = .fault .awaitUnanswered

/-- 10_state.md R134: a Faulted block accepts no call and takes no step. -/
def Obligations.FaultedBlockTakesNoStep : Prop :=
  ∀ (s : State), s.life = .faulted →
    step s = .fault .blockFaulted ∧ ∀ i : Instr, exec i s = .fault .blockFaulted

/-- 10_state.md R131, R133: every call starts in every state that accepts it, whatever the lifecycle, the cache and the
environment's answers. -/
def Obligations.EveryAcceptedCallStarts : Prop :=
  ∀ (i : Instr) (s : State), Accepts s → ∃ t, exec i s = .next t

/-- 10_state.md R131: a call while another is in flight has no step. -/
def Obligations.CallWhileBusyHasNoStep : Prop :=
  ∀ (s : State) (op : Instr) (pt : AwaitPoint) (k : List Act), s.life ≠ .faulted → s.phase = .busy op pt k →
    ∀ i : Instr, exec i s = .refused .requestWhileBusy

/-! ## The whole machine -/

/-- When the bytes at the head of an idle block's request port decode to a well-formed instruction, the step is exec of
it, with what is left of the bytes in their place (log 2). -/
def Obligations.StepRunsTheDecodedInstruction : Prop :=
  ∀ (s : State) (bs k : List Byte) (items : List PortItem) (i : Instr), Accepts s →
    s.port = .word bs :: items → decode s.par bs = .ok (i, k) → wellFormed s.par i = true →
    step s = exec i { s with port := (if k = [] then items else .word k :: items) }

/-- The same for a call placed at the request port as it is (log 2). -/
def Obligations.StepRunsThePendingCall : Prop :=
  ∀ (s : State) (items : List PortItem) (i : Instr), Accepts s →
    s.port = .call i :: items → wellFormed s.par i = true → step s = exec i { s with port := items }

/-- 10_state.md R103, 20_memory.md R231, R234, R241, 41_command_encoder.md R405: every step keeps the invariant. -/
def Obligations.StepKeepsTheInvariant : Prop :=
  ∀ s t : State, Inv s → step s = .next t → Inv t

/-- A constructed instance meets the invariant when its parameters meet R7 and the drawn rectangle lies inside the
panel, and it is coherent whatever the draw, for it is not Ready; so is the machine after reset (the reset rectangle is
the model's choice, log 5). -/
def Obligations.ConstructionMeetsTheInvariant : Prop :=
  (∀ (p : Params) (cfg : OrientationConfig) (d : BitDepth) (a : Rect), p.Wf → inPanel p a = true →
    Inv (State.construct p cfg d a)) ∧ Inv State.reset ∧
  ∀ (p : Params) (cfg : OrientationConfig) (d : BitDepth) (a : Rect), Coherent (State.construct p cfg d a)

/-- 10_state.md R160: the values at construction, for every parameter record, configuration and draw. -/
def Obligations.ConstructionValues : Prop :=
  ∀ (p : Params) (cfg : OrientationConfig) (d : BitDepth) (a : Rect),
    let s := State.construct p cfg d a
    s.depth = d ∧ s.addr = a ∧ s.buf = [] ∧ s.cfg = cfg ∧ s.dc = .unknown ∧ s.rst = .unknown ∧
    s.life = .uninitialized ∧ s.phase = .idle ∧ s.par = p

/-- 10_state.md R111: the configuration is the one given at construction, and no step changes it (nor the parameters,
which are no state, log 3). -/
def Obligations.ConfigurationNeverChanges : Prop :=
  (∀ (p : Params) (cfg : OrientationConfig) (d : BitDepth) (a : Rect), (State.construct p cfg d a).cfg = cfg) ∧
  ∀ s t : State, step s = .next t → t.cfg = s.cfg ∧ t.par = s.par

/-- 10_state.md R141, 20_memory.md R240: a step only adds events and delivered bytes, at the end. -/
def Obligations.TraceAndWireOnlyGrow : Prop :=
  ∀ s t : State, step s = .next t →
    (∃ es, t.trace = s.trace ++ es) ∧ ∃ ws, t.wire = s.wire ++ ws

/-- 10_state.md R101, R102: only INIT and WRITE change the cached depth and rectangle. -/
def Obligations.OnlyInitAndWriteChangeTheCache : Prop :=
  ∀ s t : State, Inv s → step s = .next t → t.depth ≠ s.depth ∨ t.addr ≠ s.addr →
    ∃ i, s.running = some i ∧ (i = .init ∨ ∃ data depth area, i = .write data depth area)

/-- 10_state.md R142: only INIT drives RST. A step that records a drive of RST, be it to the level the line has
(R141), or that changes what is known of the line, is INIT's. -/
def Obligations.OnlyInitDrivesReset : Prop :=
  ∀ s t : State, Inv s → step s = .next t →
    t.rst ≠ s.rst ∨
      (∃ (es : List Event) (lvl : Level) (r : PinResult), t.trace = s.trace ++ es ∧ Event.pin .rst lvl r ∈ es) →
    s.running = some .init

/-- 43_driver.md R500, 10_state.md R132: only INIT makes the lifecycle Ready, and only INIT leaves Indeterminate (but
for a fatal fault). -/
def Obligations.OnlyInitRestoresTrust : Prop :=
  ∀ s t : State, Inv s → step s = .next t →
    (s.life ≠ .ready ∧ t.life = .ready) ∨
      (s.life = .indeterminate ∧ t.life ≠ .indeterminate ∧ t.life ≠ .faulted) →
    s.running = some .init

/-- 10_state.md R132, R133: no behaviour reads the lifecycle (Faulted apart): a step from a state with another
lifecycle differs in the lifecycle alone. -/
def Obligations.LifecycleIsNeverRead : Prop :=
  ∀ (s t : State) (l : Life), l ≠ .faulted → step s = .next t →
    ∃ l', step (s.setLife l) = .next (t.setLife l')

/-! ## The pixel format serializer -/

/-- 45_pixel_format.md R560, R570, R580: the channels are the arguments masked to their widths. -/
def Obligations.MadeColoursHoldMaskedChannels : Prop :=
  ∀ (r g b : Nat) (s : State), Accepts s →
    (∃ c : C8, exec (.make8 r g b) s = .next (s.setResult (.c8 c)) ∧
      c.red = r &&& 7 ∧ c.green = g &&& 7 ∧ c.blue = b &&& 3) ∧
    (∃ c : C16, exec (.make16 r g b) s = .next (s.setResult (.c16 c)) ∧
      c.red = r &&& 31 ∧ c.green = g &&& 63 ∧ c.blue = b &&& 31)

/-- 45_pixel_format.md R562: the packed byte, and that ENCODE8 is a bijection. The bit positions are the spec's own
choice (log 21). -/
def Obligations.EncodeEightPacksOneByte : Prop :=
  (∀ (c : C8) (s : State), Accepts s → ∃ v : Byte, exec (.encode8 c) s = .next (s.setResult (.bytes [v])) ∧
    v.toNat = (c.red <<< 5) ||| (c.green <<< 2) ||| c.blue) ∧
  (∀ c c' : C8, encode8 c = encode8 c' → c = c') ∧ (∀ v : Byte, ∃ c : C8, encode8 c = [v])

/-- 45_pixel_format.md R572: the 16-bit word, high byte first, and that ENCODE16 is a bijection. The field positions are
the spec's own choice (log 21). -/
def Obligations.EncodeSixteenIsBigEndian : Prop :=
  (∀ (c : C16) (s : State), Accepts s → ∃ hi lo : Byte,
    exec (.encode16 c) s = .next (s.setResult (.bytes [hi, lo])) ∧
    hi.toNat * 256 + lo.toNat = (c.red <<< 11) ||| (c.green <<< 5) ||| c.blue) ∧
  (∀ c c' : C16, encode16 c = encode16 c' → c = c') ∧ (∀ hi lo : Byte, ∃ c : C16, encode16 c = [hi, lo])

/-- 45_pixel_format.md R563, R564: the most significant bits of each channel. -/
def Obligations.EightBitReductionKeepsTopBits : Prop :=
  ∀ (r g b l : Byte) (s : State), Accepts s →
    (∃ c : C8, exec (.fromRgb8 r g b) s = .next (s.setResult (.c8 c)) ∧
      c.red = r.toNat / 32 ∧ c.green = g.toNat / 32 ∧ c.blue = b.toNat / 64) ∧
    (∃ c : C8, exec (.fromGray8 l) s = .next (s.setResult (.c8 c)) ∧
      c.red = l.toNat / 32 ∧ c.green = l.toNat / 32 ∧ c.blue = l.toNat / 64)

/-- 45_pixel_format.md R573, R574 (the spec's own choice D21, log 21). -/
def Obligations.SixteenBitReductionKeepsTopBits : Prop :=
  ∀ (r g b l : Byte) (s : State), Accepts s →
    (∃ c : C16, exec (.fromRgb16 r g b) s = .next (s.setResult (.c16 c)) ∧
      c.red = r.toNat / 8 ∧ c.green = g.toNat / 4 ∧ c.blue = b.toNat / 8) ∧
    (∃ c : C16, exec (.fromGray16 l) s = .next (s.setResult (.c16 c)) ∧
      c.red = l.toNat / 8 ∧ c.green = l.toNat / 4 ∧ c.blue = l.toNat / 8)

/-- 45_pixel_format.md R581: a sequence's bytes are n · WIDTH_OF(fmt), and pixel i's bytes stand together at their
place. -/
def Obligations.PixelSequencesConcatenate : Prop :=
  (∀ (cs : List C8) (i : Nat) (c : C8), (encodeSeq8 cs).length = cs.length * PixelFormat.width .p8 ∧
    (cs[i]? = some c → ((encodeSeq8 cs).drop i).take 1 = encode8 c)) ∧
  (∀ (cs : List C16) (i : Nat) (c : C16), (encodeSeq16 cs).length = cs.length * PixelFormat.width .p16 ∧
    (cs[i]? = some c → ((encodeSeq16 cs).drop (2 * i)).take 2 = encode16 c))

/-! ## The cache against what was sent, and the failed FLUSH -/

/-- 43_driver.md R520 (marked derived there), as a step: however the environment answers, whenever a call ends with the
block Ready, the cached depth (with the configuration) is that of the last RemapAndColorDepth sent since INIT, or INIT's,
and the cached rectangle is that of the last AddressRectangle sent since INIT, or INIT's full panel. An encoder function
called on its own with one of these two commands (log 15) is not a request, and R520 does not speak of it. -/
def Obligations.CacheIsWhatWasLastSentWhileReady : Prop :=
  ∀ s t : State, Inv s → Coherent s → (∀ i, s.running = some i → i.bypassesAlone = false) → step s = .next t →
    Coherent t ∧ (t.Final → t.life = .ready → Synced t)

/-- 60_exceptions.md R610, 41_command_encoder.md R403: a PinSet(DC, Low) that fails in any FLUSH of APPEND_BATCHED, BATCH,
SEND, INIT or WRITE, whatever waited in the buffer, ends the whole call there: the bytes of that FLUSH stay in the buffer,
what follows is not appended or sent, DC is unknown, and the cache is as the call left it before that FLUSH. FLUSH alone
is FlushTransmitsTheWholeBufferOrKeepsIt. The encoder functions' response event is the model's reading (log 15). -/
def Obligations.FailedFlushEndsEveryCaller : Prop :=
  ∀ (s : State) (e : EnvError) (before after : List (List Byte)) (seg : List Byte)
    (ps : List PinAnswer) (as : List BusAnswer) (ds : List DelayAnswer), Accepts s →
    (∀ (c : Command) (b : List Byte), enc s.par c = .ok b → s.buf ≠ [] → s.par.cap < s.buf.length + b.length →
      s.pins = .err e :: ps →
      exec (.appendBatched c) s = .next
        { s with
          pins := ps, dc := .unknown, life := .indeterminate, result := .err (.pin e),
          trace := s.trace ++ [.pin .dc .low (.err e), .resp (.err (.pin e))] }) ∧
    (∀ (cmds : List Command) (es : List (List Byte)), 11 ≤ s.par.cap → encAll s.par cmds = .ok es →
      segments s.par.cap s.buf es = before ++ seg :: after →
      s.pins = List.replicate before.length .ok ++ .err e :: ps → s.buses = List.replicate before.length .ok ++ as →
      let t : State :=
        { s with
          pins := ps, buses := as, buf := seg, dc := .unknown, life := .indeterminate, result := .err (.pin e),
          trace := s.trace ++ segmentEvents before ++ [.pin .dc .low (.err e), .resp (.err (.pin e))],
          wire := s.wire ++ wireOf .low before.flatten }
      CompletesIn before.length (.batch cmds) s t ∧ CompletesIn before.length (.send cmds) s t) ∧
    (s.par.Wf →
      segments s.par.cap (if s.par.initClearsBuffer then [] else s.buf) (initEncodings s.par s.cfg) =
        before ++ seg :: after →
      s.pins = .ok :: .ok :: (List.replicate before.length .ok ++ .err e :: ps) →
      s.buses = List.replicate before.length .ok ++ as → s.delays = .elapsed :: .elapsed :: ds →
      CompletesIn (before.length + 2) .init s
        { s with
          depth := .sixteen, addr := ⟨0, 0, s.par.panelW, s.par.panelH⟩, rst := .high, buf := seg, dc := .unknown,
          life := .indeterminate, pins := ps, buses := as, delays := ds, result := .err (.pin e),
          trace := s.trace ++
            [.pin .rst .low .ok, .delay s.par.tRstLow, .pin .rst .high .ok, .delay s.par.tRstHigh] ++
            segmentEvents before ++ [.pin .dc .low (.err e), .resp (.err (.pin e))],
          wire := s.wire ++ wireOf .low before.flatten }) ∧
    (∀ (data : List Byte) (depth : BitDepth) (area : Rect), s.par.Wf → inLogical s.par area s.cfg = true →
      let q := toRam area s.cfg
      segments s.par.cap s.buf (writeEncodings s.par s.cfg s.depth s.addr depth q) = before ++ seg :: after →
      s.pins = List.replicate before.length .ok ++ .err e :: ps → s.buses = List.replicate before.length .ok ++ as →
      CompletesIn before.length (.write data depth area) s
        { s.enqueued depth q (before.flatten ++ seg).length with
          pins := ps, buses := as, buf := seg, dc := .unknown, life := .indeterminate, result := .err (.pin e),
          trace := s.trace ++ segmentEvents before ++ [.pin .dc .low (.err e), .resp (.err (.pin e))],
          wire := s.wire ++ wireOf .low before.flatten })
end

