-- ==== Sys2Proof/Laws/State.lean ====
section
/-! SUPPORT. One lemma per field per update of State, true by rfl. -/

namespace Sys2Proof.Machine

section
variable (s : State) (v : BitDepth)
@[simp] theorem State.setDepth_depth : (s.setDepth v).depth = v := rfl
@[simp] theorem State.setDepth_addr : (s.setDepth v).addr = s.addr := rfl
@[simp] theorem State.setDepth_buf : (s.setDepth v).buf = s.buf := rfl
@[simp] theorem State.setDepth_cfg : (s.setDepth v).cfg = s.cfg := rfl
@[simp] theorem State.setDepth_dc : (s.setDepth v).dc = s.dc := rfl
@[simp] theorem State.setDepth_rst : (s.setDepth v).rst = s.rst := rfl
@[simp] theorem State.setDepth_life : (s.setDepth v).life = s.life := rfl
@[simp] theorem State.setDepth_phase : (s.setDepth v).phase = s.phase := rfl
@[simp] theorem State.setDepth_par : (s.setDepth v).par = s.par := rfl
@[simp] theorem State.setDepth_port : (s.setDepth v).port = s.port := rfl
@[simp] theorem State.setDepth_pins : (s.setDepth v).pins = s.pins := rfl
@[simp] theorem State.setDepth_pinDraw : (s.setDepth v).pinDraw = s.pinDraw := rfl
@[simp] theorem State.setDepth_buses : (s.setDepth v).buses = s.buses := rfl
@[simp] theorem State.setDepth_delays : (s.setDepth v).delays = s.delays := rfl
@[simp] theorem State.setDepth_result : (s.setDepth v).result = s.result := rfl
@[simp] theorem State.setDepth_trace : (s.setDepth v).trace = s.trace := rfl
@[simp] theorem State.setDepth_wire : (s.setDepth v).wire = s.wire := rfl
end

section
variable (s : State) (v : Rect)
@[simp] theorem State.setAddr_depth : (s.setAddr v).depth = s.depth := rfl
@[simp] theorem State.setAddr_addr : (s.setAddr v).addr = v := rfl
@[simp] theorem State.setAddr_buf : (s.setAddr v).buf = s.buf := rfl
@[simp] theorem State.setAddr_cfg : (s.setAddr v).cfg = s.cfg := rfl
@[simp] theorem State.setAddr_dc : (s.setAddr v).dc = s.dc := rfl
@[simp] theorem State.setAddr_rst : (s.setAddr v).rst = s.rst := rfl
@[simp] theorem State.setAddr_life : (s.setAddr v).life = s.life := rfl
@[simp] theorem State.setAddr_phase : (s.setAddr v).phase = s.phase := rfl
@[simp] theorem State.setAddr_par : (s.setAddr v).par = s.par := rfl
@[simp] theorem State.setAddr_port : (s.setAddr v).port = s.port := rfl
@[simp] theorem State.setAddr_pins : (s.setAddr v).pins = s.pins := rfl
@[simp] theorem State.setAddr_pinDraw : (s.setAddr v).pinDraw = s.pinDraw := rfl
@[simp] theorem State.setAddr_buses : (s.setAddr v).buses = s.buses := rfl
@[simp] theorem State.setAddr_delays : (s.setAddr v).delays = s.delays := rfl
@[simp] theorem State.setAddr_result : (s.setAddr v).result = s.result := rfl
@[simp] theorem State.setAddr_trace : (s.setAddr v).trace = s.trace := rfl
@[simp] theorem State.setAddr_wire : (s.setAddr v).wire = s.wire := rfl
end

section
variable (s : State) (v : List Byte)
@[simp] theorem State.setBuf_depth : (s.setBuf v).depth = s.depth := rfl
@[simp] theorem State.setBuf_addr : (s.setBuf v).addr = s.addr := rfl
@[simp] theorem State.setBuf_buf : (s.setBuf v).buf = v := rfl
@[simp] theorem State.setBuf_cfg : (s.setBuf v).cfg = s.cfg := rfl
@[simp] theorem State.setBuf_dc : (s.setBuf v).dc = s.dc := rfl
@[simp] theorem State.setBuf_rst : (s.setBuf v).rst = s.rst := rfl
@[simp] theorem State.setBuf_life : (s.setBuf v).life = s.life := rfl
@[simp] theorem State.setBuf_phase : (s.setBuf v).phase = s.phase := rfl
@[simp] theorem State.setBuf_par : (s.setBuf v).par = s.par := rfl
@[simp] theorem State.setBuf_port : (s.setBuf v).port = s.port := rfl
@[simp] theorem State.setBuf_pins : (s.setBuf v).pins = s.pins := rfl
@[simp] theorem State.setBuf_pinDraw : (s.setBuf v).pinDraw = s.pinDraw := rfl
@[simp] theorem State.setBuf_buses : (s.setBuf v).buses = s.buses := rfl
@[simp] theorem State.setBuf_delays : (s.setBuf v).delays = s.delays := rfl
@[simp] theorem State.setBuf_result : (s.setBuf v).result = s.result := rfl
@[simp] theorem State.setBuf_trace : (s.setBuf v).trace = s.trace := rfl
@[simp] theorem State.setBuf_wire : (s.setBuf v).wire = s.wire := rfl
end

section
variable (s : State) (v : Line)
@[simp] theorem State.setDc_depth : (s.setDc v).depth = s.depth := rfl
@[simp] theorem State.setDc_addr : (s.setDc v).addr = s.addr := rfl
@[simp] theorem State.setDc_buf : (s.setDc v).buf = s.buf := rfl
@[simp] theorem State.setDc_cfg : (s.setDc v).cfg = s.cfg := rfl
@[simp] theorem State.setDc_dc : (s.setDc v).dc = v := rfl
@[simp] theorem State.setDc_rst : (s.setDc v).rst = s.rst := rfl
@[simp] theorem State.setDc_life : (s.setDc v).life = s.life := rfl
@[simp] theorem State.setDc_phase : (s.setDc v).phase = s.phase := rfl
@[simp] theorem State.setDc_par : (s.setDc v).par = s.par := rfl
@[simp] theorem State.setDc_port : (s.setDc v).port = s.port := rfl
@[simp] theorem State.setDc_pins : (s.setDc v).pins = s.pins := rfl
@[simp] theorem State.setDc_pinDraw : (s.setDc v).pinDraw = s.pinDraw := rfl
@[simp] theorem State.setDc_buses : (s.setDc v).buses = s.buses := rfl
@[simp] theorem State.setDc_delays : (s.setDc v).delays = s.delays := rfl
@[simp] theorem State.setDc_result : (s.setDc v).result = s.result := rfl
@[simp] theorem State.setDc_trace : (s.setDc v).trace = s.trace := rfl
@[simp] theorem State.setDc_wire : (s.setDc v).wire = s.wire := rfl
end

section
variable (s : State) (v : Line)
@[simp] theorem State.setRst_depth : (s.setRst v).depth = s.depth := rfl
@[simp] theorem State.setRst_addr : (s.setRst v).addr = s.addr := rfl
@[simp] theorem State.setRst_buf : (s.setRst v).buf = s.buf := rfl
@[simp] theorem State.setRst_cfg : (s.setRst v).cfg = s.cfg := rfl
@[simp] theorem State.setRst_dc : (s.setRst v).dc = s.dc := rfl
@[simp] theorem State.setRst_rst : (s.setRst v).rst = v := rfl
@[simp] theorem State.setRst_life : (s.setRst v).life = s.life := rfl
@[simp] theorem State.setRst_phase : (s.setRst v).phase = s.phase := rfl
@[simp] theorem State.setRst_par : (s.setRst v).par = s.par := rfl
@[simp] theorem State.setRst_port : (s.setRst v).port = s.port := rfl
@[simp] theorem State.setRst_pins : (s.setRst v).pins = s.pins := rfl
@[simp] theorem State.setRst_pinDraw : (s.setRst v).pinDraw = s.pinDraw := rfl
@[simp] theorem State.setRst_buses : (s.setRst v).buses = s.buses := rfl
@[simp] theorem State.setRst_delays : (s.setRst v).delays = s.delays := rfl
@[simp] theorem State.setRst_result : (s.setRst v).result = s.result := rfl
@[simp] theorem State.setRst_trace : (s.setRst v).trace = s.trace := rfl
@[simp] theorem State.setRst_wire : (s.setRst v).wire = s.wire := rfl
end

section
variable (s : State) (v : Life)
@[simp] theorem State.setLife_depth : (s.setLife v).depth = s.depth := rfl
@[simp] theorem State.setLife_addr : (s.setLife v).addr = s.addr := rfl
@[simp] theorem State.setLife_buf : (s.setLife v).buf = s.buf := rfl
@[simp] theorem State.setLife_cfg : (s.setLife v).cfg = s.cfg := rfl
@[simp] theorem State.setLife_dc : (s.setLife v).dc = s.dc := rfl
@[simp] theorem State.setLife_rst : (s.setLife v).rst = s.rst := rfl
@[simp] theorem State.setLife_life : (s.setLife v).life = v := rfl
@[simp] theorem State.setLife_phase : (s.setLife v).phase = s.phase := rfl
@[simp] theorem State.setLife_par : (s.setLife v).par = s.par := rfl
@[simp] theorem State.setLife_port : (s.setLife v).port = s.port := rfl
@[simp] theorem State.setLife_pins : (s.setLife v).pins = s.pins := rfl
@[simp] theorem State.setLife_pinDraw : (s.setLife v).pinDraw = s.pinDraw := rfl
@[simp] theorem State.setLife_buses : (s.setLife v).buses = s.buses := rfl
@[simp] theorem State.setLife_delays : (s.setLife v).delays = s.delays := rfl
@[simp] theorem State.setLife_result : (s.setLife v).result = s.result := rfl
@[simp] theorem State.setLife_trace : (s.setLife v).trace = s.trace := rfl
@[simp] theorem State.setLife_wire : (s.setLife v).wire = s.wire := rfl
end

section
variable (s : State) (v : Phase)
@[simp] theorem State.setPhase_depth : (s.setPhase v).depth = s.depth := rfl
@[simp] theorem State.setPhase_addr : (s.setPhase v).addr = s.addr := rfl
@[simp] theorem State.setPhase_buf : (s.setPhase v).buf = s.buf := rfl
@[simp] theorem State.setPhase_cfg : (s.setPhase v).cfg = s.cfg := rfl
@[simp] theorem State.setPhase_dc : (s.setPhase v).dc = s.dc := rfl
@[simp] theorem State.setPhase_rst : (s.setPhase v).rst = s.rst := rfl
@[simp] theorem State.setPhase_life : (s.setPhase v).life = s.life := rfl
@[simp] theorem State.setPhase_phase : (s.setPhase v).phase = v := rfl
@[simp] theorem State.setPhase_par : (s.setPhase v).par = s.par := rfl
@[simp] theorem State.setPhase_port : (s.setPhase v).port = s.port := rfl
@[simp] theorem State.setPhase_pins : (s.setPhase v).pins = s.pins := rfl
@[simp] theorem State.setPhase_pinDraw : (s.setPhase v).pinDraw = s.pinDraw := rfl
@[simp] theorem State.setPhase_buses : (s.setPhase v).buses = s.buses := rfl
@[simp] theorem State.setPhase_delays : (s.setPhase v).delays = s.delays := rfl
@[simp] theorem State.setPhase_result : (s.setPhase v).result = s.result := rfl
@[simp] theorem State.setPhase_trace : (s.setPhase v).trace = s.trace := rfl
@[simp] theorem State.setPhase_wire : (s.setPhase v).wire = s.wire := rfl
end

section
variable (s : State) (v : List PortItem)
@[simp] theorem State.setPort_depth : (s.setPort v).depth = s.depth := rfl
@[simp] theorem State.setPort_addr : (s.setPort v).addr = s.addr := rfl
@[simp] theorem State.setPort_buf : (s.setPort v).buf = s.buf := rfl
@[simp] theorem State.setPort_cfg : (s.setPort v).cfg = s.cfg := rfl
@[simp] theorem State.setPort_dc : (s.setPort v).dc = s.dc := rfl
@[simp] theorem State.setPort_rst : (s.setPort v).rst = s.rst := rfl
@[simp] theorem State.setPort_life : (s.setPort v).life = s.life := rfl
@[simp] theorem State.setPort_phase : (s.setPort v).phase = s.phase := rfl
@[simp] theorem State.setPort_par : (s.setPort v).par = s.par := rfl
@[simp] theorem State.setPort_port : (s.setPort v).port = v := rfl
@[simp] theorem State.setPort_pins : (s.setPort v).pins = s.pins := rfl
@[simp] theorem State.setPort_pinDraw : (s.setPort v).pinDraw = s.pinDraw := rfl
@[simp] theorem State.setPort_buses : (s.setPort v).buses = s.buses := rfl
@[simp] theorem State.setPort_delays : (s.setPort v).delays = s.delays := rfl
@[simp] theorem State.setPort_result : (s.setPort v).result = s.result := rfl
@[simp] theorem State.setPort_trace : (s.setPort v).trace = s.trace := rfl
@[simp] theorem State.setPort_wire : (s.setPort v).wire = s.wire := rfl
end

section
variable (s : State) (v : List PinAnswer)
@[simp] theorem State.setPins_depth : (s.setPins v).depth = s.depth := rfl
@[simp] theorem State.setPins_addr : (s.setPins v).addr = s.addr := rfl
@[simp] theorem State.setPins_buf : (s.setPins v).buf = s.buf := rfl
@[simp] theorem State.setPins_cfg : (s.setPins v).cfg = s.cfg := rfl
@[simp] theorem State.setPins_dc : (s.setPins v).dc = s.dc := rfl
@[simp] theorem State.setPins_rst : (s.setPins v).rst = s.rst := rfl
@[simp] theorem State.setPins_life : (s.setPins v).life = s.life := rfl
@[simp] theorem State.setPins_phase : (s.setPins v).phase = s.phase := rfl
@[simp] theorem State.setPins_par : (s.setPins v).par = s.par := rfl
@[simp] theorem State.setPins_port : (s.setPins v).port = s.port := rfl
@[simp] theorem State.setPins_pins : (s.setPins v).pins = v := rfl
@[simp] theorem State.setPins_pinDraw : (s.setPins v).pinDraw = s.pinDraw := rfl
@[simp] theorem State.setPins_buses : (s.setPins v).buses = s.buses := rfl
@[simp] theorem State.setPins_delays : (s.setPins v).delays = s.delays := rfl
@[simp] theorem State.setPins_result : (s.setPins v).result = s.result := rfl
@[simp] theorem State.setPins_trace : (s.setPins v).trace = s.trace := rfl
@[simp] theorem State.setPins_wire : (s.setPins v).wire = s.wire := rfl
end

section
variable (s : State) (v : Nat)
@[simp] theorem State.setPinDraw_depth : (s.setPinDraw v).depth = s.depth := rfl
@[simp] theorem State.setPinDraw_addr : (s.setPinDraw v).addr = s.addr := rfl
@[simp] theorem State.setPinDraw_buf : (s.setPinDraw v).buf = s.buf := rfl
@[simp] theorem State.setPinDraw_cfg : (s.setPinDraw v).cfg = s.cfg := rfl
@[simp] theorem State.setPinDraw_dc : (s.setPinDraw v).dc = s.dc := rfl
@[simp] theorem State.setPinDraw_rst : (s.setPinDraw v).rst = s.rst := rfl
@[simp] theorem State.setPinDraw_life : (s.setPinDraw v).life = s.life := rfl
@[simp] theorem State.setPinDraw_phase : (s.setPinDraw v).phase = s.phase := rfl
@[simp] theorem State.setPinDraw_par : (s.setPinDraw v).par = s.par := rfl
@[simp] theorem State.setPinDraw_port : (s.setPinDraw v).port = s.port := rfl
@[simp] theorem State.setPinDraw_pins : (s.setPinDraw v).pins = s.pins := rfl
@[simp] theorem State.setPinDraw_pinDraw : (s.setPinDraw v).pinDraw = v := rfl
@[simp] theorem State.setPinDraw_buses : (s.setPinDraw v).buses = s.buses := rfl
@[simp] theorem State.setPinDraw_delays : (s.setPinDraw v).delays = s.delays := rfl
@[simp] theorem State.setPinDraw_result : (s.setPinDraw v).result = s.result := rfl
@[simp] theorem State.setPinDraw_trace : (s.setPinDraw v).trace = s.trace := rfl
@[simp] theorem State.setPinDraw_wire : (s.setPinDraw v).wire = s.wire := rfl
end

section
variable (s : State) (v : List BusAnswer)
@[simp] theorem State.setBuses_depth : (s.setBuses v).depth = s.depth := rfl
@[simp] theorem State.setBuses_addr : (s.setBuses v).addr = s.addr := rfl
@[simp] theorem State.setBuses_buf : (s.setBuses v).buf = s.buf := rfl
@[simp] theorem State.setBuses_cfg : (s.setBuses v).cfg = s.cfg := rfl
@[simp] theorem State.setBuses_dc : (s.setBuses v).dc = s.dc := rfl
@[simp] theorem State.setBuses_rst : (s.setBuses v).rst = s.rst := rfl
@[simp] theorem State.setBuses_life : (s.setBuses v).life = s.life := rfl
@[simp] theorem State.setBuses_phase : (s.setBuses v).phase = s.phase := rfl
@[simp] theorem State.setBuses_par : (s.setBuses v).par = s.par := rfl
@[simp] theorem State.setBuses_port : (s.setBuses v).port = s.port := rfl
@[simp] theorem State.setBuses_pins : (s.setBuses v).pins = s.pins := rfl
@[simp] theorem State.setBuses_pinDraw : (s.setBuses v).pinDraw = s.pinDraw := rfl
@[simp] theorem State.setBuses_buses : (s.setBuses v).buses = v := rfl
@[simp] theorem State.setBuses_delays : (s.setBuses v).delays = s.delays := rfl
@[simp] theorem State.setBuses_result : (s.setBuses v).result = s.result := rfl
@[simp] theorem State.setBuses_trace : (s.setBuses v).trace = s.trace := rfl
@[simp] theorem State.setBuses_wire : (s.setBuses v).wire = s.wire := rfl
end

section
variable (s : State) (v : List DelayAnswer)
@[simp] theorem State.setDelays_depth : (s.setDelays v).depth = s.depth := rfl
@[simp] theorem State.setDelays_addr : (s.setDelays v).addr = s.addr := rfl
@[simp] theorem State.setDelays_buf : (s.setDelays v).buf = s.buf := rfl
@[simp] theorem State.setDelays_cfg : (s.setDelays v).cfg = s.cfg := rfl
@[simp] theorem State.setDelays_dc : (s.setDelays v).dc = s.dc := rfl
@[simp] theorem State.setDelays_rst : (s.setDelays v).rst = s.rst := rfl
@[simp] theorem State.setDelays_life : (s.setDelays v).life = s.life := rfl
@[simp] theorem State.setDelays_phase : (s.setDelays v).phase = s.phase := rfl
@[simp] theorem State.setDelays_par : (s.setDelays v).par = s.par := rfl
@[simp] theorem State.setDelays_port : (s.setDelays v).port = s.port := rfl
@[simp] theorem State.setDelays_pins : (s.setDelays v).pins = s.pins := rfl
@[simp] theorem State.setDelays_pinDraw : (s.setDelays v).pinDraw = s.pinDraw := rfl
@[simp] theorem State.setDelays_buses : (s.setDelays v).buses = s.buses := rfl
@[simp] theorem State.setDelays_delays : (s.setDelays v).delays = v := rfl
@[simp] theorem State.setDelays_result : (s.setDelays v).result = s.result := rfl
@[simp] theorem State.setDelays_trace : (s.setDelays v).trace = s.trace := rfl
@[simp] theorem State.setDelays_wire : (s.setDelays v).wire = s.wire := rfl
end

section
variable (s : State) (v : Result)
@[simp] theorem State.setResult_depth : (s.setResult v).depth = s.depth := rfl
@[simp] theorem State.setResult_addr : (s.setResult v).addr = s.addr := rfl
@[simp] theorem State.setResult_buf : (s.setResult v).buf = s.buf := rfl
@[simp] theorem State.setResult_cfg : (s.setResult v).cfg = s.cfg := rfl
@[simp] theorem State.setResult_dc : (s.setResult v).dc = s.dc := rfl
@[simp] theorem State.setResult_rst : (s.setResult v).rst = s.rst := rfl
@[simp] theorem State.setResult_life : (s.setResult v).life = s.life := rfl
@[simp] theorem State.setResult_phase : (s.setResult v).phase = s.phase := rfl
@[simp] theorem State.setResult_par : (s.setResult v).par = s.par := rfl
@[simp] theorem State.setResult_port : (s.setResult v).port = s.port := rfl
@[simp] theorem State.setResult_pins : (s.setResult v).pins = s.pins := rfl
@[simp] theorem State.setResult_pinDraw : (s.setResult v).pinDraw = s.pinDraw := rfl
@[simp] theorem State.setResult_buses : (s.setResult v).buses = s.buses := rfl
@[simp] theorem State.setResult_delays : (s.setResult v).delays = s.delays := rfl
@[simp] theorem State.setResult_result : (s.setResult v).result = v := rfl
@[simp] theorem State.setResult_trace : (s.setResult v).trace = s.trace := rfl
@[simp] theorem State.setResult_wire : (s.setResult v).wire = s.wire := rfl
end

section
variable (s : State) (v : Event)
@[simp] theorem State.emit_depth : (s.emit v).depth = s.depth := rfl
@[simp] theorem State.emit_addr : (s.emit v).addr = s.addr := rfl
@[simp] theorem State.emit_buf : (s.emit v).buf = s.buf := rfl
@[simp] theorem State.emit_cfg : (s.emit v).cfg = s.cfg := rfl
@[simp] theorem State.emit_dc : (s.emit v).dc = s.dc := rfl
@[simp] theorem State.emit_rst : (s.emit v).rst = s.rst := rfl
@[simp] theorem State.emit_life : (s.emit v).life = s.life := rfl
@[simp] theorem State.emit_phase : (s.emit v).phase = s.phase := rfl
@[simp] theorem State.emit_par : (s.emit v).par = s.par := rfl
@[simp] theorem State.emit_port : (s.emit v).port = s.port := rfl
@[simp] theorem State.emit_pins : (s.emit v).pins = s.pins := rfl
@[simp] theorem State.emit_pinDraw : (s.emit v).pinDraw = s.pinDraw := rfl
@[simp] theorem State.emit_buses : (s.emit v).buses = s.buses := rfl
@[simp] theorem State.emit_delays : (s.emit v).delays = s.delays := rfl
@[simp] theorem State.emit_result : (s.emit v).result = s.result := rfl
@[simp] theorem State.emit_trace : (s.emit v).trace = s.trace ++ [v] := rfl
@[simp] theorem State.emit_wire : (s.emit v).wire = s.wire := rfl
end

section
variable (s : State) (v : List Byte)
@[simp] theorem State.deliver_depth : (s.deliver v).depth = s.depth := rfl
@[simp] theorem State.deliver_addr : (s.deliver v).addr = s.addr := rfl
@[simp] theorem State.deliver_buf : (s.deliver v).buf = s.buf := rfl
@[simp] theorem State.deliver_cfg : (s.deliver v).cfg = s.cfg := rfl
@[simp] theorem State.deliver_dc : (s.deliver v).dc = s.dc := rfl
@[simp] theorem State.deliver_rst : (s.deliver v).rst = s.rst := rfl
@[simp] theorem State.deliver_life : (s.deliver v).life = s.life := rfl
@[simp] theorem State.deliver_phase : (s.deliver v).phase = s.phase := rfl
@[simp] theorem State.deliver_par : (s.deliver v).par = s.par := rfl
@[simp] theorem State.deliver_port : (s.deliver v).port = s.port := rfl
@[simp] theorem State.deliver_pins : (s.deliver v).pins = s.pins := rfl
@[simp] theorem State.deliver_pinDraw : (s.deliver v).pinDraw = s.pinDraw := rfl
@[simp] theorem State.deliver_buses : (s.deliver v).buses = s.buses := rfl
@[simp] theorem State.deliver_delays : (s.deliver v).delays = s.delays := rfl
@[simp] theorem State.deliver_result : (s.deliver v).result = s.result := rfl
@[simp] theorem State.deliver_trace : (s.deliver v).trace = s.trace := rfl
@[simp] theorem State.deliver_wire : (s.deliver v).wire = s.wire ++ v.map (WireByte.mk s.dc) := rfl
end

end Sys2Proof.Machine
end

