-- ==== Sys2Proof/Laws/Ops.lean ====
section
/-! SUPPORT. What each shared operation can do, said once. -/

namespace Sys2Proof

/-! ## The encoder -/

theorem withRect4_ok {p : Params} {c : Command} {r : Rect} {f : RectBytes → List Byte} {b : List Byte}
    (h : withRect4 p c r f = .ok b) :
    r.cornersInRange p = true ∧ b = f ⟨clamp r.x, clamp r.y, clamp r.right, clamp r.bottom⟩ := by
  unfold withRect4 rect4 at h
  by_cases hr : r.cornersInRange p = true
  · simp only [hr, if_true] at h
    exact ⟨hr, (Except.ok.inj h).symm⟩
  · simp [hr] at h

theorem withNonEmptyRect4_ok {p : Params} {c : Command} {r : Rect} {f : RectBytes → List Byte} {b : List Byte}
    (h : withNonEmptyRect4 p c r f = .ok b) :
    r.empty = false ∧ r.cornersInRange p = true ∧ b = f ⟨clamp r.x, clamp r.y, clamp r.right, clamp r.bottom⟩ := by
  unfold withNonEmptyRect4 at h
  by_cases he : r.empty = true
  · simp [he] at h
  · simp only [he] at h
    exact ⟨by simpa using he, withRect4_ok h⟩

/-- A command's encoding has the command's fixed length (41_command_encoder.md R401). -/
theorem enc_length {p : Params} {c : Command} {b : List Byte} (h : enc p c = .ok b) : b.length = c.len := by
  cases c
  case clearWindow r => obtain ⟨-, -, rfl⟩ := withNonEmptyRect4_ok h; rfl
  case addressRectangle r => obtain ⟨-, -, rfl⟩ := withNonEmptyRect4_ok h; rfl
  case drawRectangle r _ _ _ _ _ _ => obtain ⟨-, rfl⟩ := withRect4_ok h; rfl
  all_goals (cases h; rfl)

theorem Command.len_pos (c : Command) : 1 ≤ c.len := by cases c <;> simp [Command.len]

theorem Command.len_le (c : Command) : c.len ≤ 11 := by cases c <;> simp [Command.len]

theorem enc_ne_nil {p : Params} {c : Command} {b : List Byte} (h : enc p c = .ok b) : b ≠ [] := by
  have h1 := enc_length h
  have h2 := c.len_pos
  rintro rfl
  simp at h1
  omega

theorem encAll_cons_ok {p : Params} {c : Command} {cs : List Command} {es : List (List Byte)} :
    encAll p (c :: cs) = .ok es ↔ ∃ b bs, enc p c = .ok b ∧ encAll p cs = .ok bs ∧ es = b :: bs := by
  constructor
  · intro h
    unfold encAll at h
    split at h
    · cases h
    · split at h
      · cases h
      · exact ⟨_, _, ‹_›, ‹_›, (Except.ok.inj h).symm⟩
  · rintro ⟨b, bs, hb, hbs, rfl⟩
    simp [encAll, hb, hbs]

theorem encAll_append {p : Params} {cs ds : List Command} {es fs : List (List Byte)}
    (h1 : encAll p cs = .ok es) (h2 : encAll p ds = .ok fs) : encAll p (cs ++ ds) = .ok (es ++ fs) := by
  induction cs generalizing es with
  | nil => cases h1; simpa using h2
  | cons c cs ih =>
    obtain ⟨b, bs, hb, hbs, rfl⟩ := encAll_cons_ok.1 h1
    exact encAll_cons_ok.2 ⟨b, bs ++ fs, hb, ih hbs, rfl⟩

end Sys2Proof

namespace Sys2Proof.Machine

/-! ## Accepting -/

theorem accept_of_accepts {s : State} (h : Accepts s) (f : State → State) : accept s f = .next (f s) := by
  simp [accept, h.1, h.2]

/-- A call answers a next state exactly when it is accepted. -/
theorem accept_next {s t : State} {f : State → State} : accept s f = .next t ↔ Accepts s ∧ t = f s := by
  unfold accept Accepts
  split
  · simp_all
  · split
    · simp_all
    · simp_all [eq_comm]

/-! ## The buffer -/

@[simp] theorem memWrite_end (buf v : List Byte) : memWrite buf buf.length v = buf ++ v := by
  simp [memWrite]

@[simp] theorem memRead_whole (data : List Byte) : memRead data 0 data.length = data := by
  simp [memRead]

theorem wholeCommands_nil (p : Params) : WholeCommands p [] := ⟨[], [], rfl, rfl⟩

theorem WholeCommands.append {p : Params} {bs b : List Byte} {c : Command}
    (h : WholeCommands p bs) (hb : enc p c = .ok b) : WholeCommands p (bs ++ b) := by
  obtain ⟨cs, es, he, rfl⟩ := h
  refine ⟨cs ++ [c], es ++ [b], encAll_append he (encAll_cons_ok.2 ⟨b, [], hb, rfl, rfl⟩), by simp⟩

/-- Everything TRY_APPEND can answer (41_command_encoder.md R402). -/
theorem tryAppend_cases {c : Command} {s t : State} {fits : Bool} (h : tryAppend c s = .ok (fits, t)) :
    ∃ b, enc s.par c = .ok b ∧
      ((fits = true ∧ s.buf.length + b.length ≤ s.par.cap ∧ t = s.setBuf (s.buf ++ b)) ∨
       (fits = false ∧ s.par.cap < s.buf.length + b.length ∧ t = s)) := by
  unfold tryAppend at h
  split at h
  · cases h
  · rename_i b hb
    refine ⟨b, hb, ?_⟩
    split at h
    · cases h; exact .inl ⟨rfl, ‹_›, by simp⟩
    · cases h; exact .inr ⟨rfl, by omega, rfl⟩

theorem tryAppend_fits {c : Command} {s : State} {b : List Byte} (hb : enc s.par c = .ok b)
    (h : s.buf.length + b.length ≤ s.par.cap) : tryAppend c s = .ok (true, s.setBuf (s.buf ++ b)) := by
  simp [tryAppend, hb, h]

theorem tryAppend_full {c : Command} {s : State} {b : List Byte} (hb : enc s.par c = .ok b)
    (h : ¬ s.buf.length + b.length ≤ s.par.cap) : tryAppend c s = .ok (false, s) := by
  simp [tryAppend, hb, h]

theorem tryAppend_fatal {c : Command} {s : State} {f : Fatal} (hf : enc s.par c = .error f) :
    tryAppend c s = .error f := by
  simp [tryAppend, hf]

/-! ## PinSet -/

theorem pinSet_dc_ok {s : State} {ps : List PinAnswer} (lvl : Level) (h : s.pins = .ok :: ps) :
    pinSet .dc lvl s = (none, ((s.setPins ps).setDc (Level.line lvl)).emit (.pin .dc lvl .ok)) := by
  simp [pinSet, State.nextPin, h, State.setLine]

theorem pinSet_rst_ok {s : State} {ps : List PinAnswer} (lvl : Level) (h : s.pins = .ok :: ps) :
    pinSet .rst lvl s = (none, ((s.setPins ps).setRst (Level.line lvl)).emit (.pin .rst lvl .ok)) := by
  simp [pinSet, State.nextPin, h, State.setLine]

theorem pinSet_dc_err {s : State} {ps : List PinAnswer} {e : EnvError} (lvl : Level) (h : s.pins = .err e :: ps) :
    pinSet .dc lvl s = (some e, ((s.setPins ps).setDc .unknown).emit (.pin .dc lvl (.err e))) := by
  simp [pinSet, State.nextPin, h, State.setLine]

theorem pinSet_rst_err {s : State} {ps : List PinAnswer} {e : EnvError} (lvl : Level) (h : s.pins = .err e :: ps) :
    pinSet .rst lvl s = (some e, ((s.setPins ps).setRst .unknown).emit (.pin .rst lvl (.err e))) := by
  simp [pinSet, State.nextPin, h, State.setLine]

/-- Everything a PinSet can do: it takes an answer, drives the line or leaves it unknown, and records its event
(10_state.md R142). -/
theorem pinSet_shape (p : Pin) (lvl : Level) (s : State) :
    ∃ ps n, (pinSet p lvl s = (none, (((s.setPins ps).setPinDraw n).setLine p (Level.line lvl)).emit (.pin p lvl .ok))) ∨
      ∃ e, pinSet p lvl s = (some e, (((s.setPins ps).setPinDraw n).setLine p .unknown).emit (.pin p lvl (.err e))) := by
  have key : ∃ a ps n, s.nextPin = (a, (s.setPins ps).setPinDraw n) := by
    unfold State.nextPin
    split
    · rename_i a as _
      exact ⟨a, as, s.pinDraw, rfl⟩
    · exact ⟨Config.freePin s.pinDraw, s.pins, s.pinDraw + 1, rfl⟩
  obtain ⟨a, ps, n, h⟩ := key
  refine ⟨ps, n, ?_⟩
  cases a with
  | ok => exact .inl (by simp [pinSet, h])
  | err e => exact .inr ⟨e, by simp [pinSet, h]⟩

/-! ## The ends of an operation: their fields -/

section
variable (s : State)

@[simp] theorem State.ret_phase (v : Result) : (s.ret v).phase = .idle := rfl
@[simp] theorem State.ret_result (v : Result) : (s.ret v).result = v := rfl
@[simp] theorem State.ret_life (v : Result) : (s.ret v).life = s.life := rfl
@[simp] theorem State.ret_trace (v : Result) : (s.ret v).trace = s.trace := rfl
@[simp] theorem State.fail_phase (e : IoError) : (s.fail e).phase = .idle := rfl
@[simp] theorem State.fail_life (e : IoError) : (s.fail e).life = .indeterminate := rfl
@[simp] theorem State.fail_result (e : IoError) : (s.fail e).result = .err e := rfl
@[simp] theorem State.fail_trace (e : IoError) : (s.fail e).trace = s.trace ++ [.resp (.err e)] := rfl
@[simp] theorem State.raise_life (f : Fatal) : (s.raise f).life = .faulted := rfl
@[simp] theorem State.raise_phase (f : Fatal) : (s.raise f).phase = s.phase := rfl
@[simp] theorem State.raise_result (f : Fatal) : (s.raise f).result = .nothing := rfl
@[simp] theorem State.raise_trace (f : Fatal) : (s.raise f).trace = s.trace ++ [.fatal f] := rfl
@[simp] theorem State.cancelled_phase : s.cancelled.phase = .idle := rfl
@[simp] theorem State.cancelled_life : s.cancelled.life = .indeterminate := rfl
@[simp] theorem State.cancelled_trace : s.cancelled.trace = s.trace ++ [.cancel] := rfl
@[simp] theorem State.respond_phase : s.respond.phase = .idle := rfl
@[simp] theorem State.respond_life : s.respond.life = s.life := rfl
@[simp] theorem State.respond_trace : s.respond.trace = s.trace ++ [.resp .ok] := rfl

/-- On an idle block a function's return changes the returned value alone. -/
theorem State.ret_of_idle {s : State} (h : s.phase = .idle) (v : Result) : s.ret v = s.setResult v := by
  cases s; cases h; rfl

end

/-! ## Suspended operations -/

theorem step_busy {s : State} {op : Instr} {pt : AwaitPoint} {k : List Act} (hl : s.life ≠ .faulted)
    (hp : s.phase = .busy op pt k) : step s = resume op pt k s := by
  simp [step, hl, hp]

theorem runCall_final {s : State} (n : Nat) (h : s.Final) : runCall n s = .next s := by
  cases n <;> simp [runCall, h.1, h.2]

theorem runCall_faulted {s : State} (n : Nat) (h : s.life = .faulted) : runCall (n + 1) s = .fault .blockFaulted := by
  unfold runCall
  split
  · simp [h]
  · simp [step, h]

theorem runCall_busy {s t : State} {op : Instr} {pt : AwaitPoint} {k : List Act} (n : Nat)
    (hp : s.phase = .busy op pt k) (h : step s = .next t) : runCall (n + 1) s = runCall n t := by
  simp [runCall, hp, h]

/-- The step at a BusWrite: what each answer does (20_memory.md R231, 60_exceptions.md R610, R630). -/
theorem answerBus_next {bytes : List Byte} {done : State → State} {s t : State}
    (h : answerBus bytes done s = .next t) :
    ∃ as, (s.buses = .ok :: as ∧ t = done ((s.setBuses as).busDone bytes)) ∨
      (∃ e n, s.buses = .err e n :: as ∧ t = (s.setBuses as).busFailed bytes e n) ∨
      (∃ n, s.buses = .cancel n :: as ∧ t = (s.setBuses as).busCancelled bytes n) := by
  unfold answerBus at h
  split at h <;> cases h
  · exact ⟨_, .inl ⟨‹_›, rfl⟩⟩
  · exact ⟨_, .inr (.inl ⟨_, _, ‹_›, rfl⟩)⟩
  · exact ⟨_, .inr (.inr ⟨_, ‹_›, rfl⟩)⟩

/-- The step at a Delay: what each answer does. -/
theorem answerDelay_next {ms : Nat} {done : State → State} {s t : State} (h : answerDelay ms done s = .next t) :
    ∃ ds, (s.delays = .elapsed :: ds ∧ t = done ((s.setDelays ds).emit (.delay ms))) ∨
      (s.delays = .cancel :: ds ∧ t = (s.setDelays ds).cancelled) := by
  unfold answerDelay at h
  split at h <;> cases h
  · exact ⟨_, .inl ⟨‹_›, rfl⟩⟩
  · exact ⟨_, .inr ⟨‹_›, rfl⟩⟩

theorem runCall_flush_ok {s : State} {op : Instr} {k : List Act} {as : List BusAnswer} (n : Nat)
    (hl : s.life ≠ .faulted) (hp : s.phase = .busy op .flush k) (hb : s.buses = .ok :: as) :
    runCall (n + 1) s = runCall n (runActs op k (((s.setBuses as).busDone s.buf).setBuf [])) := by
  rw [runCall_busy n hp]
  rw [step_busy hl hp]
  simp [resume, answerBus, hb]

theorem runCall_data_ok {s : State} {op : Instr} {k : List Act} {bytes : List Byte} {as : List BusAnswer} (n : Nat)
    (hl : s.life ≠ .faulted) (hp : s.phase = .busy op (.data bytes) k) (hb : s.buses = .ok :: as) :
    runCall (n + 1) s = runCall n (runActs op k ((s.setBuses as).busDone bytes)) := by
  rw [runCall_busy n hp]
  rw [step_busy hl hp]
  simp [resume, answerBus, hb]

theorem runCall_delay_elapsed {s : State} {op : Instr} {k : List Act} {ms : Nat} {ds : List DelayAnswer} (n : Nat)
    (hl : s.life ≠ .faulted) (hp : s.phase = .busy op (.delay ms) k) (hd : s.delays = .elapsed :: ds) :
    runCall (n + 1) s = runCall n (runActs op k ((s.setDelays ds).emit (.delay ms))) := by
  rw [runCall_busy n hp]
  rw [step_busy hl hp]
  simp [resume, answerDelay, hd]

/-! ## The cache against what was sent -/

@[simp] theorem sinceInit_nil : sinceInit [] = [] := rfl

theorem sinceInit_snoc (tr : List Event) (e : Event) :
    sinceInit (tr ++ [e]) = if e.isDelay then [] else sinceInit tr ++ [e] := by
  cases h : e.isDelay <;> simp [sinceInit, h]

@[simp] theorem lastRemap_snoc (cfg : OrientationConfig) (cs : List Command) (c : Command) :
    lastRemap cfg (cs ++ [c]) = match c with
      | .remapAndColorDepth cfg' d => (cfg', d)
      | _ => lastRemap cfg cs := by
  cases c <;> simp [lastRemap]

@[simp] theorem lastWindow_snoc (p : Params) (cs : List Command) (c : Command) :
    lastWindow p (cs ++ [c]) = match c with
      | .addressRectangle r => r
      | _ => lastWindow p cs := by
  cases c <;> simp [lastWindow]

/-- A command that does not bypass the cache changes neither last value. -/
theorem last_plain {c : Command} (h : c.bypassesCache = false) (cfg : OrientationConfig) (p : Params)
    (cs : List Command) : lastRemap cfg (cs ++ [c]) = lastRemap cfg cs ∧ lastWindow p (cs ++ [c]) = lastWindow p cs := by
  cases c <;> simp_all [Command.bypassesCache]

/-- What was sent and what waits do not depend on the answers to come. -/
@[simp] theorem synced_answered (s : State) (ps : List PinAnswer) (d : Nat) (bs : List BusAnswer)
    (ds : List DelayAnswer) : Synced (s.answered ps d bs ds) ↔ Synced s := Iff.rfl

/-- Of an ended call, coherence is the agreement itself. -/
theorem coherent_of_final {s : State} (h : s.Final) : Coherent s ↔ (s.life = .ready → Synced s) := by
  have hf : ∀ ps d bs ds, (s.answered ps d bs ds).Final := fun _ _ _ _ => h
  constructor
  · intro hc hr
    exact hc 0 s.pins s.pinDraw s.buses s.delays s rfl h hr
  · intro hs n ps d bs ds t ht _ hr
    rw [runCall_final n (hf ps d bs ds)] at ht
    cases ht
    exact hs hr

/-! ## The commands of a WRITE -/

theorem writeEncodings_flatten (p : Params) (cfg : OrientationConfig) (d : BitDepth) (r : Rect) (depth : BitDepth)
    (q : Rect) : (writeEncodings p cfg d r depth q).flatten = depthBytes p cfg d depth ++ addressBytes r q := by
  unfold writeEncodings
  cases depthBytes p cfg d depth <;> cases addressBytes r q <;> simp

/-- Before a command is enqueued the cache is as it was. -/
theorem State.enqueued_none {s : State} {depth : BitDepth} {q : Rect} (hd : depth ≠ s.depth) :
    s.enqueued depth q s.buf.length = s := by
  have h : (depthBytes s.par s.cfg s.depth depth).length = 2 := by simp [depthBytes, hd]
  cases s
  simp_all [State.enqueued]
  omega

/-- Once every command is enqueued the cache holds the values asked for. -/
theorem State.enqueued_all (s : State) (depth : BitDepth) (q : Rect) :
    s.enqueued depth q (s.buf.length + (depthBytes s.par s.cfg s.depth depth).length + (addressBytes s.addr q).length) =
      { s with depth := depth, addr := q } := by
  simp [State.enqueued]

/-! ## The greedy cut -/

@[simp] theorem segments_nil_nil (cap : Nat) : segments cap [] [] = [] := rfl

@[simp] theorem segments_cons_nil (cap : Nat) (b : Byte) (bs : List Byte) : segments cap (b :: bs) [] = [b :: bs] := rfl

theorem segments_fits {cap : Nat} {pending e : List Byte} (es : List (List Byte)) (h : pending.length + e.length ≤ cap) :
    segments cap pending (e :: es) = segments cap (pending ++ e) es := by
  cases pending <;> simp [segments] at h ⊢ <;> omega

theorem segments_full {cap : Nat} {pending e : List Byte} (es : List (List Byte)) (h : ¬ pending.length + e.length ≤ cap) :
    segments cap pending (e :: es) = pending :: segments cap e es := by
  cases pending <;> simp [segments] at h ⊢ <;> omega

end Sys2Proof.Machine
end

