-- ==== Sys2Proof/Laws/Closed.lean ====
section
/-! SUPPORT. Everything a step can do to a state, packaged once: a property that the primitive changes keep is kept by
the pseudocode, by every call and by every step. -/

namespace Sys2Proof.Machine

/-- A property of states that every primitive change keeps. -/
structure Closed (P : State → Prop) : Prop where
  life : ∀ s l, P s → P (s.setLife l)
  phase : ∀ s v, P s → P (s.setPhase v)
  port : ∀ s v, P s → P (s.setPort v)
  result : ∀ s v, P s → P (s.setResult v)
  emit : ∀ s e, P s → P (s.emit e)
  deliver : ∀ s bs, P s → P (s.deliver bs)
  pins : ∀ s v, P s → P (s.setPins v)
  pinDraw : ∀ s v, P s → P (s.setPinDraw v)
  buses : ∀ s v, P s → P (s.setBuses v)
  delays : ∀ s v, P s → P (s.setDelays v)
  dc : ∀ s v, P s → P (s.setDc v)
  rst : ∀ s v, P s → P (s.setRst v)
  depth : ∀ s v, P s → P (s.setDepth v)
  addr : ∀ s v, P s → P (s.setAddr v)
  bufNil : ∀ s, P s → P (s.setBuf [])
  bufAppend : ∀ s c b, enc s.par c = .ok b → s.buf.length + b.length ≤ s.par.cap → P s → P (s.setBuf (s.buf ++ b))

namespace Closed

variable {P : State → Prop} (hP : Closed P)
include hP

theorem setLine {s : State} (p : Pin) (v : Line) (h : P s) : P (s.setLine p v) := by
  cases p
  · exact hP.rst s v h
  · exact hP.dc s v h

theorem pinSet {s : State} (p : Pin) (lvl : Level) (h : P s) : P (pinSet p lvl s).2 := by
  obtain ⟨ps, n, hk | ⟨e, hk⟩⟩ := pinSet_shape p lvl s <;> rw [hk] <;>
    exact hP.emit _ _ (hP.setLine _ _ (hP.pinDraw _ _ (hP.pins _ _ h)))

theorem ret {s : State} (v : Result) (h : P s) : P (s.ret v) := hP.phase _ _ (hP.result _ _ h)

theorem respond {s : State} (h : P s) : P s.respond := hP.ret _ (hP.emit _ _ h)

theorem fail {s : State} (e : IoError) (h : P s) : P (s.fail e) := hP.ret _ (hP.life _ _ (hP.emit _ _ h))

theorem raise {s : State} (f : Fatal) (h : P s) : P (s.raise f) := hP.result _ _ (hP.life _ _ (hP.emit _ _ h))

theorem cancelled {s : State} (h : P s) : P s.cancelled := hP.ret _ (hP.life _ _ (hP.emit _ _ h))

theorem resetCache {s : State} (h : P s) : P s.resetCache := by
  have h' := hP.addr _ ⟨0, 0, s.par.panelW, s.par.panelH⟩ (hP.depth s .sixteen h)
  unfold State.resetCache
  split
  · exact hP.bufNil _ h'
  · exact h'

theorem tryAppend {c : Command} {s t : State} {fits : Bool} (ht : tryAppend c s = .ok (fits, t)) (h : P s) : P t := by
  obtain ⟨b, hb, ⟨-, hle, rfl⟩ | ⟨-, -, rfl⟩⟩ := tryAppend_cases ht
  · exact hP.bufAppend s c b hb hle h
  · exact h

theorem flushThen {s : State} (op : Instr) (k : List Act) (h : P s) : P (flushThen op k s) := by
  have hp := hP.pinSet .dc .low h
  unfold Machine.flushThen
  split <;> rename_i hk <;> rw [hk] at hp
  · exact hP.phase _ _ hp
  · exact hP.fail _ hp

theorem dataThen {s : State} (op : Instr) (data : List Byte) (k : List Act) (h : P s) :
    P (dataThen op data k s) := by
  have hp := hP.pinSet .dc .high h
  unfold Machine.dataThen
  split <;> rename_i hk <;> rw [hk] at hp
  · exact hP.phase _ _ hp
  · exact hP.fail _ hp

/-- Running pseudocode to the next resumption point keeps a closed property. -/
theorem runActs (op : Instr) (k : List Act) {s : State} (h : P s) : P (runActs op k s) := by
  induction k generalizing s with
  | nil => exact hP.ret _ h
  | cons a k ih =>
    cases a with
    | setLife l => exact ih (hP.life _ _ h)
    | pin p lvl =>
      have hp := hP.pinSet p lvl h
      simp only [Machine.runActs]
      split <;> rename_i hk <;> rw [hk] at hp
      · exact ih hp
      · exact hP.fail _ hp
    | delay ms => exact hP.phase _ _ h
    | resetCache => exact ih (hP.resetCache h)
    | append c =>
      simp only [Machine.runActs]
      split
      · exact hP.raise _ h
      · exact ih (hP.tryAppend ‹_› h)
      · split
        · exact hP.raise _ (hP.tryAppend ‹_› h)
        · exact hP.flushThen _ _ (hP.tryAppend ‹_› h)
    | retry c =>
      simp only [Machine.runActs]
      split
      · exact hP.raise _ h
      · exact ih (hP.tryAppend ‹_› h)
      · exact hP.raise _ (hP.tryAppend ‹_› h)
    | flush =>
      simp only [Machine.runActs]
      split
      · exact ih h
      · exact hP.flushThen _ _ h
    | setDepth d => exact ih (hP.depth _ _ h)
    | setAddr q => exact ih (hP.addr _ _ h)
    | dataPhase data => exact hP.dataThen _ _ _ h
    | respond => exact hP.respond h
    | ret => exact hP.ret _ h

theorem busDone {s : State} (bs : List Byte) (h : P s) : P (s.busDone bs) := hP.deliver _ _ (hP.emit _ _ h)

/-- A resumed operation keeps a closed property. -/
theorem resume {op : Instr} {pt : AwaitPoint} {k : List Act} {s t : State} (ht : resume op pt k s = .next t)
    (h : P s) : P t := by
  have bus : ∀ bytes (done : State → State), (∀ u, P u → P (done u)) → answerBus bytes done s = .next t → P t := by
    intro bytes done hd hb
    obtain ⟨as, ⟨-, rfl⟩ | ⟨e, n, -, rfl⟩ | ⟨n, -, rfl⟩⟩ := answerBus_next hb
    · exact hd _ (hP.busDone _ (hP.buses _ _ h))
    · exact hP.fail _ (hP.deliver _ _ (hP.emit _ _ (hP.buses _ _ h)))
    · exact hP.cancelled (hP.deliver _ _ (hP.emit _ _ (hP.buses _ _ h)))
  cases pt with
  | delay ms =>
    obtain ⟨ds, ⟨-, rfl⟩ | ⟨-, rfl⟩⟩ := answerDelay_next ht
    · exact hP.runActs _ _ (hP.emit _ _ (hP.delays _ _ h))
    · exact hP.cancelled (hP.delays _ _ h)
  | flush => exact bus _ _ (fun u hu => hP.runActs _ _ (hP.bufNil _ hu)) ht
  | data bytes => exact bus _ _ (fun u hu => hP.runActs _ _ hu) ht

theorem encodeCall {c : Command} {s t : State} (ht : encodeCall c s = .next t) (h : P s) : P t := by
  obtain ⟨-, rfl⟩ := accept_next.1 ht
  split
  · exact hP.ret _ h
  · exact hP.raise _ h

theorem ofRuns {op : Instr} {k : List Act} {s t : State} (ht : accept s (Machine.runActs op k) = .next t) (h : P s) : P t := by
  obtain ⟨-, rfl⟩ := accept_next.1 ht
  exact hP.runActs _ _ h

theorem ofRet {v : State → Result} {s t : State} (ht : accept s (fun s => s.ret (v s)) = .next t) (h : P s) : P t := by
  obtain ⟨-, rfl⟩ := accept_next.1 ht
  exact hP.ret _ h

/-- Every call keeps a closed property. -/
theorem exec {i : Instr} {s t : State} (ht : exec i s = .next t) (h : P s) : P t := by
  cases i <;> simp only [Machine.exec] at ht
  case init =>
    unfold execInit at ht
    obtain ⟨-, rfl⟩ := accept_next.1 ht
    exact hP.runActs _ _ h
  case write data depth area =>
    unfold execWrite at ht
    obtain ⟨-, rfl⟩ := accept_next.1 ht
    split
    · exact hP.runActs _ _ h
    · exact hP.raise _ h
  case send cmds =>
    unfold execSend at ht
    obtain ⟨-, rfl⟩ := accept_next.1 ht
    split
    · exact hP.raise _ h
    · exact hP.runActs _ _ h
  case tryAppend c =>
    unfold execTryAppend at ht
    obtain ⟨-, rfl⟩ := accept_next.1 ht
    split
    · exact hP.raise _ h
    · exact hP.ret _ (hP.tryAppend ‹_› h)
  case flush => exact hP.ofRuns ht h
  case appendBatched c => exact hP.ofRuns ht h
  case batch cmds => exact hP.ofRuns ht h
  case clamp v => exact hP.ofRet (v := fun _ => .byte (Sys2Proof.clamp v)) ht h
  case toRam r cfg => exact hP.ofRet (v := fun _ => .rect (Sys2Proof.toRam r cfg)) ht h
  case logicalSize cfg =>
    exact hP.ofRet (v := fun s => .size (Sys2Proof.logicalSize s.par cfg).1 (Sys2Proof.logicalSize s.par cfg).2) ht h
  case size =>
    exact hP.ofRet (v := fun s => .size (Sys2Proof.logicalSize s.par s.cfg).1 (Sys2Proof.logicalSize s.par s.cfg).2) ht h
  case make8 r g b => exact hP.ofRet (v := fun _ => .c8 (Sys2Proof.make8 r g b)) ht h
  case encode8 c => exact hP.ofRet (v := fun _ => .bytes (Sys2Proof.encode8 c)) ht h
  case fromRgb8 r g b => exact hP.ofRet (v := fun _ => .c8 (Sys2Proof.fromRgb8 r g b)) ht h
  case fromGray8 l => exact hP.ofRet (v := fun _ => .c8 (Sys2Proof.fromGray8 l)) ht h
  case make16 r g b => exact hP.ofRet (v := fun _ => .c16 (Sys2Proof.make16 r g b)) ht h
  case encode16 c => exact hP.ofRet (v := fun _ => .bytes (Sys2Proof.encode16 c)) ht h
  case fromRgb16 r g b => exact hP.ofRet (v := fun _ => .c16 (Sys2Proof.fromRgb16 r g b)) ht h
  case fromGray16 l => exact hP.ofRet (v := fun _ => .c16 (Sys2Proof.fromGray16 l)) ht h
  all_goals exact hP.encodeCall ht h

end Closed

/-- Everything a step can be: a suspended operation's resumption, or a call taken from the request port. -/
theorem step_next {s t : State} (h : step s = .next t) :
    s.life ≠ .faulted ∧
    ((∃ op pt k, s.phase = .busy op pt k ∧ resume op pt k s = .next t) ∨
     (∃ item items i more, s.phase = .idle ∧ s.port = item :: items ∧ fetch s.par item = .ok (i, more) ∧
       wellFormed s.par i = true ∧ exec i (s.setPort (more ++ items)) = .next t)) := by
  unfold step at h
  split at h
  · cases h
  · refine ⟨‹_›, ?_⟩
    split at h
    · exact .inl ⟨_, _, _, ‹_›, h⟩
    · split at h
      · cases h
      · split at h
        · cases h
        · split at h
          · exact .inr ⟨_, _, _, _, ‹_›, ‹_›, ‹_›, ‹_›, h⟩
          · cases h

/-- Every step keeps a closed property. -/
theorem Closed.step {P : State → Prop} (hP : Closed P) {s t : State} (ht : step s = .next t) (h : P s) : P t := by
  obtain ⟨-, ⟨op, pt, k, -, hr⟩ | ⟨item, items, i, more, -, -, -, -, he⟩⟩ := step_next ht
  · exact hP.resume hr h
  · exact hP.exec he (hP.port _ _ h)

/-- The buffer stays within its capacity under every primitive change: the memory law of this block (10_state.md R103). -/
theorem bufFits_closed : Closed fun s => s.buf.length ≤ s.par.cap where
  life _ _ h := h
  phase _ _ h := h
  port _ _ h := h
  result _ _ h := h
  emit _ _ h := h
  deliver _ _ h := h
  pins _ _ h := h
  pinDraw _ _ h := h
  buses _ _ h := h
  delays _ _ h := h
  dc _ _ h := h
  rst _ _ h := h
  depth _ _ h := h
  addr _ _ h := h
  bufNil _ _ := Nat.zero_le _
  bufAppend s c b _ hle _ := by simpa using hle

end Sys2Proof.Machine
end

