-- ==== Sys2Proof/Laws/PerInstr.lean ====
section
/-! SUPPORT. Laws about instructions as syntax, one lemma per constructor of Instr. -/

namespace Sys2Proof.Laws.WireLength

/-- An instruction that has bytes is a command's row, and its bytes have the row's fixed length (30_encoding.md R300,
R301). -/
def Statement (i : Instr) : Prop :=
  ∀ p b, encode p i = some b → ∃ c, i.command? = some c ∧ b.length = c.len

theorem of_command {i : Instr} {c : Command} (h : i.command? = some c) : Statement i := by
  intro p b hb
  refine ⟨c, h, ?_⟩
  simp only [encode, h] at hb
  split at hb
  · cases hb; exact enc_length ‹_›
  · cases hb

theorem of_none {i : Instr} (h : i.command? = none) : Statement i := by
  intro p b hb
  simp [encode, h] at hb

theorem masterCurrent : ∀ level, Statement (.masterCurrent level) := fun _ => of_command rfl

theorem contrast : ∀ r g b, Statement (.contrast r g b) := fun _ _ _ => of_command rfl

theorem displayOn : ∀ on, Statement (.displayOn on) := fun _ => of_command rfl

theorem remapAndColorDepth : ∀ cfg d, Statement (.remapAndColorDepth cfg d) := fun _ _ => of_command rfl

theorem clearWindow : ∀ rect, Statement (.clearWindow rect) := fun _ => of_command rfl

theorem addressRectangle : ∀ rect, Statement (.addressRectangle rect) := fun _ => of_command rfl

theorem drawLine : ∀ p0 p1 cr cg cb, Statement (.drawLine p0 p1 cr cg cb) := fun _ _ _ _ _ => of_command rfl

theorem drawRectangle : ∀ rect br bg bb fr fg fb, Statement (.drawRectangle rect br bg bb fr fg fb) := fun _ _ _ _ _ _ _ => of_command rfl

theorem setFillEnabled : ∀ e, Statement (.setFillEnabled e) := fun _ => of_command rfl

theorem noOp : Statement .noOp := of_command rfl

theorem init : Statement .init := of_none rfl

theorem write : ∀ data depth area, Statement (.write data depth area) := fun _ _ _ => of_none rfl

theorem send : ∀ cmds, Statement (.send cmds) := fun _ => of_none rfl

theorem size : Statement .size := of_none rfl

theorem tryAppend : ∀ c, Statement (.tryAppend c) := fun _ => of_none rfl

theorem flush : Statement .flush := of_none rfl

theorem appendBatched : ∀ c, Statement (.appendBatched c) := fun _ => of_none rfl

theorem batch : ∀ cmds, Statement (.batch cmds) := fun _ => of_none rfl

theorem clamp : ∀ v, Statement (.clamp v) := fun _ => of_none rfl

theorem toRam : ∀ r cfg, Statement (.toRam r cfg) := fun _ _ => of_none rfl

theorem logicalSize : ∀ cfg, Statement (.logicalSize cfg) := fun _ => of_none rfl

theorem make8 : ∀ r g b, Statement (.make8 r g b) := fun _ _ _ => of_none rfl

theorem encode8 : ∀ c, Statement (.encode8 c) := fun _ => of_none rfl

theorem fromRgb8 : ∀ r g b, Statement (.fromRgb8 r g b) := fun _ _ _ => of_none rfl

theorem fromGray8 : ∀ l, Statement (.fromGray8 l) := fun _ => of_none rfl

theorem make16 : ∀ r g b, Statement (.make16 r g b) := fun _ _ _ => of_none rfl

theorem encode16 : ∀ c, Statement (.encode16 c) := fun _ => of_none rfl

theorem fromRgb16 : ∀ r g b, Statement (.fromRgb16 r g b) := fun _ _ _ => of_none rfl

theorem fromGray16 : ∀ l, Statement (.fromGray16 l) := fun _ => of_none rfl

end Sys2Proof.Laws.WireLength
end

