-- ==== Sys2Proof/Machine/Text.lean ====
section
/-! DEFINITION. The textual request syntax of 30_encoding.md R330, R331 (the spec's own, D34): a printer. No behaviour of
the block depends on it. What R330 leaves open of the spelling is the model's choice (log 26). -/

namespace Sys2Proof

/-- Text between the two braces of a rectangle or a configuration. -/
def braced (t : String) : String := String.singleton (Char.ofNat 123) ++ t ++ String.singleton (Char.ofNat 125)

def commaJoin (ts : List String) : String := String.intercalate "," ts

/-- `{x,y,w,h}`, all decimal. -/
def Rect.text (r : Rect) : String := braced (commaJoin [toString r.x, toString r.y, toString r.w, toString r.h])

/-- `(x,y)`. DESIGN CHOICE (log 26): decimal, as R330 has it for a rectangle. -/
def Point.text (q : Point) : String := "(" ++ toString q.x ++ "," ++ toString q.y ++ ")"

/-- A `<u8>` operand. DESIGN CHOICE (log 26): decimal, since R330 gives no number base. -/
def byteText (b : Byte) : String := toString b.toNat

/-- A byte of WRITE's data as two hexadecimal digits (R330). DESIGN CHOICE (log 26): small letters. -/
def hexText (b : Byte) : String :=
  String.ofList [Nat.digitChar (b.toNat / 16), Nat.digitChar (b.toNat % 16)]

def boolText (b : Bool) : String := if b then "true" else "false"

def BitDepth.text : BitDepth → String
  | .eight => "E8"
  | .sixteen => "E16"

def PixelOrder.text : PixelOrder → String
  | .rowMajor => "RowMajor"
  | .columnMajor => "ColumnMajor"

def ColumnDirection.text : ColumnDirection → String
  | .leftToRight => "LeftToRight"
  | .rightToLeft => "RightToLeft"

def RowDirection.text : RowDirection → String
  | .normal => "Normal"
  | .reversed => "Reversed"

def RowInterleave.text : RowInterleave → String
  | .interleaved => "Interleaved"
  | .notInterleaved => "NotInterleaved"

/-- A configuration: its preset's name, or its four fields. DESIGN CHOICE (log 26): the name where there is one. -/
def OrientationConfig.text (p : Params) (c : OrientationConfig) : String :=
  if c = p.preset .rot0 then "ROT0"
  else if c = p.preset .rot90 then "ROT90"
  else if c = p.preset .rot180 then "ROT180"
  else if c = p.preset .rot270 then "ROT270"
  else braced (commaJoin [c.order.text, c.coldir.text, c.rowdir.text, c.interleave.text])

def callText (name : String) (args : List String) : String :=
  name ++ "(" ++ String.intercalate ", " args ++ ")"

/-- A command under its source name (30_encoding.md R330). -/
def Command.text (p : Params) : Command → String
  | .masterCurrent l => callText "MasterCurrent" [byteText l]
  | .contrast r g b => callText "Contrast" [byteText r, byteText g, byteText b]
  | .displayOn on => callText "DisplayOn" [boolText on]
  | .remapAndColorDepth c d => callText "RemapAndColorDepth" [c.text p, d.text]
  | .clearWindow r => callText "ClearWindow" [r.text]
  | .addressRectangle r => callText "AddressRectangle" [r.text]
  | .drawLine p0 p1 cr cg cb => callText "DrawLine" [p0.text, p1.text, byteText cr, byteText cg, byteText cb]
  | .drawRectangle r br bg bb fr fg fb =>
    callText "DrawRectangle"
      [r.text, commaJoin [byteText br, byteText bg, byteText bb], commaJoin [byteText fr, byteText fg, byteText fb]]
  | .setFillEnabled e => callText "SetFillEnabled" [boolText e]
  | .noOp => "NoOp"

/-- A request as one line; R330 gives the encoder and leaf functions no syntax. -/
def Instr.text? (p : Params) (i : Instr) : Option String :=
  match i.command? with
  | some c => some (c.text p)
  | none =>
    match i with
    | .init => some "INIT"
    | .write data d area =>
      some ("WRITE " ++ String.intercalate ", "
        [d.text, area.text, "[" ++ String.intercalate " " (data.map hexText) ++ "]"])
    | .send cmds => some ("SEND [" ++ String.intercalate "; " (cmds.map (Command.text p)) ++ "]")
    | .size => some "SIZE"
    | _ => none

end Sys2Proof
end

