-- ==== Sys2Proof/Tests/Slice0.lean ====
section
/-! SUPPORT. The model's own tests: ill-formed terms, words written out from the spec's encodings, one step each of the
spec's vectors (95_test_vectors.md), and for every obligation a state and operands that meet its hypotheses. Expected
values come from the spec, never from a run of the model. -/

namespace Sys2Proof.Tests

open Sys2Proof Sys2Proof.Machine

/-! ## Helpers -/

def stateOf : Host.Outcome State Fault Refusal → Option State
  | .next s => some s
  | .fault _ => none
  | .refused _ => none

/-- What the call returned. -/
def resultOf (i : Instr) (s : State) : Option Result := (stateOf (exec i s)).map (·.result)

def rot0 : OrientationConfig := Preset.adopted .rot0
def rot90 : OrientationConfig := Preset.adopted .rot90
def panel : Rect := ⟨0, 0, 96, 64⟩

/-- The state "after INIT" of 95_test_vectors.md, with the environment's answers given. -/
def ready (pins : List PinAnswer) (buses : List BusAnswer) : State :=
  { State.construct Params.adopted rot0 .sixteen panel with
    dc := .low, rst := .high, life := .ready, pins := pins, buses := buses }

/-- A suspended operation with one answer to come. -/
def suspended (op : Instr) (pt : AwaitPoint) (k : List Act) (bus : BusAnswer) (delay : DelayAnswer) : State :=
  { ready [] [bus] with phase := .busy op pt k, buf := [0xBC], delays := [delay] }

/-! ## WellFormed: each check refuses an ill-formed term (10_state.md R106, R107) -/

theorem test_wf_refuses_x_below : wellFormed Params.adopted (.clearWindow ⟨-2147483649, 0, 1, 1⟩) = false := by decide
theorem test_wf_refuses_y_above : wellFormed Params.adopted (.addressRectangle ⟨0, 2147483648, 1, 1⟩) = false := by decide
theorem test_wf_refuses_width : wellFormed Params.adopted (.drawRectangle ⟨0, 0, 4294967296, 1⟩ 0 0 0 0 0 0) = false := by
  decide
theorem test_wf_refuses_height : wellFormed Params.adopted (.write [] .eight ⟨0, 0, 1, 4294967296⟩) = false := by decide
theorem test_wf_refuses_first_point : wellFormed Params.adopted (.drawLine ⟨2147483648, 0⟩ ⟨0, 0⟩ 0 0 0) = false := by decide
theorem test_wf_refuses_second_point : wellFormed Params.adopted (.drawLine ⟨0, 0⟩ ⟨0, -2147483649⟩ 0 0 0) = false := by
  decide
theorem test_wf_refuses_in_send : wellFormed Params.adopted (.send [.noOp, .clearWindow ⟨2147483648, 0, 1, 1⟩]) = false := by
  decide
theorem test_wf_refuses_in_batch : wellFormed Params.adopted (.batch [.clearWindow ⟨2147483648, 0, 1, 1⟩]) = false := by
  decide
theorem test_wf_refuses_in_try_append : wellFormed Params.adopted (.tryAppend (.clearWindow ⟨2147483648, 0, 1, 1⟩)) = false := by
  decide
theorem test_wf_refuses_in_append_batched :
    wellFormed Params.adopted (.appendBatched (.clearWindow ⟨2147483648, 0, 1, 1⟩)) = false := by decide
theorem test_wf_refuses_to_ram : wellFormed Params.adopted (.toRam ⟨2147483648, 0, 1, 1⟩ rot0) = false := by decide
theorem test_wf_accepts_extremes :
    wellFormed Params.adopted (.clearWindow ⟨-2147483648, 2147483647, 0, 4294967295⟩) = true := by decide

/-! ## Decoding: words written out from 30_encoding.md R301 -/

theorem test_decode_master_current : decodeTableWord 16 0x8705 = some (.masterCurrent 5) := by decide
theorem test_decode_contrast : decodeTableWord 48 0x818082508380 = some (.contrast 0x80 0x50 0x80) := by decide
theorem test_decode_display_off : decodeTableWord 8 0xAE = some .displayOff := by decide
theorem test_decode_display_on : decodeTableWord 8 0xAF = some (.displayOn true) := by decide
theorem test_decode_remap : decodeTableWord 16 0xA061 = some (.remapAndColorDepth (Preset.adopted .rot270) .sixteen) := by
  decide
theorem test_decode_clear_window : decodeTableWord 40 0x2500005F3F = some (.clearWindow panel) := by decide
theorem test_decode_address_rectangle :
    decodeTableWord 48 0x15FA03750000 = some (.addressRectangle ⟨250, 0, 10, 1⟩) := by decide
theorem test_decode_draw_line :
    decodeTableWord 64 0x2100005F3F3F0000 = some (.drawLine ⟨0, 0⟩ ⟨95, 63⟩ 0x3F 0 0) := by decide
theorem test_decode_draw_rectangle :
    decodeTableWord 88 0x220A0A1D13010203040506 = some (.drawRectangle ⟨10, 10, 20, 10⟩ 1 2 3 4 5 6) := by decide
theorem test_decode_set_fill : decodeTableWord 16 0x2601 = some (.setFillEnabled true) := by decide
theorem test_decode_no_op : decodeTableWord 8 0xBC = some .noOp := by decide
theorem test_decode_first_byte_lowest : decodeTableWord 40 0x25 = some (.clearWindow ⟨0, 0, 1, 1⟩) := by decide
theorem test_decode_rejects_flags_bit_2 : decode Params.adopted [0xA0, 0x04] = .error (.badFlags 4) := by decide
theorem test_decode_rejects_split_contrast :
    decode Params.adopted [0x81, 0, 0x83, 0, 0x82, 0] = .error (.brokenSequence 0x81) := by decide
theorem test_decode_rejects_short : decode Params.adopted [0x15, 0, 0, 0x75, 0] = .error (.truncated 0x15) := by decide

/-- The word placed at the request port runs as the first call after reset. -/
theorem test_fetch_word_runs :
    (stateOf (step (State.reset.withFetchWord 16 0x87FF))).map (·.result) = some (.bytes [0x87, 0x0F]) := by decide

/-! ## The commands (95_test_vectors.md 2.1, 2.2) -/

theorem test_master_current_20 : resultOf (.masterCurrent 20) State.reset = some (.bytes [0x87, 0x0F]) := by decide
theorem test_contrast : resultOf (.contrast 0x00 0xFF 0x7F) State.reset =
    some (.bytes [0x81, 0x00, 0x82, 0xFF, 0x83, 0x7F]) := by decide
theorem test_display_off : resultOf (.displayOn false) State.reset = some (.bytes [0xAE]) := by decide
theorem test_remap_rot90_eight : resultOf (.remapAndColorDepth rot90 .eight) State.reset = some (.bytes [0xA0, 0x33]) := by
  decide
theorem test_clear_window_negative : resultOf (.clearWindow ⟨-3, 10, 5, 2⟩) State.reset =
    some (.bytes [0x25, 0x00, 0x0A, 0x01, 0x0B]) := by decide
theorem test_clear_window_empty : (stateOf (exec (.clearWindow ⟨0, 0, 5, 0⟩) State.reset)).map (·.trace) =
    some [.fatal (.emptyRect (.clearWindow ⟨0, 0, 5, 0⟩))] := by decide
theorem test_address_rectangle_wraps : resultOf (.addressRectangle ⟨250, 0, 10, 1⟩) State.reset =
    some (.bytes [0x15, 0xFA, 0x03, 0x75, 0x00, 0x00]) := by decide
theorem test_address_rectangle_edge : resultOf (.addressRectangle ⟨2147483647, 0, 1, 1⟩) State.reset =
    some (.bytes [0x15, 0xFF, 0xFF, 0x75, 0x00, 0x00]) := by decide
theorem test_draw_line_clamps : resultOf (.drawLine ⟨-1, 300⟩ ⟨5, 5⟩ 1 2 3) State.reset =
    some (.bytes [0x21, 0x00, 0x2C, 0x05, 0x05, 0x01, 0x02, 0x03]) := by decide
theorem test_draw_rectangle_empty : resultOf (.drawRectangle ⟨10, 10, 0, 5⟩ 0 0 0 0 0 0) State.reset =
    some (.bytes [0x22, 0x0A, 0x0A, 0x09, 0x0E, 0, 0, 0, 0, 0, 0]) := by decide
theorem test_draw_rectangle_out_of_range :
    (stateOf (exec (.drawRectangle ⟨2147483647, 0, 2, 1⟩ 0 0 0 0 0 0) State.reset)).map (·.life) = some .faulted := by decide
theorem test_set_fill : resultOf (.setFillEnabled true) State.reset = some (.bytes [0x26, 0x01]) := by decide
theorem test_no_op : resultOf .noOp State.reset = some (.bytes [0xBC]) := by decide
theorem test_clamp_negative : resultOf (.clamp (-5)) State.reset = some (.byte 0) := by decide
theorem test_clamp_300 : resultOf (.clamp 300) State.reset = some (.byte 44) := by decide

/-- 60_exceptions.md R600. -/
theorem test_fatal_codes : Fatal.code (.writeArea panel) = 0x10 ∧ Fatal.code (.cmdTooLarge .noOp) = 0x11 ∧
    Fatal.code (.emptyRect .noOp) = 0x12 ∧ Fatal.code (.coordRange .noOp) = 0x13 := by decide
theorem test_returned_codes : Event.code? (.resp (.err (.pin ⟨1⟩))) = some 0x01 ∧
    Event.code? (.resp (.err (.bus ⟨1⟩))) = some 0x02 ∧ Event.code? .cancel = some 0x03 ∧
    Event.code? (.fatal (.writeArea panel)) = some 0x10 := by decide

/-- R620: a call that faulted has not ended. -/
theorem test_faulted_is_not_final : runCall 1 { State.reset with life := .faulted } = .fault .blockFaulted ∧
    ¬ State.Final { State.reset with life := .faulted } := ⟨rfl, by decide⟩

/-! ## The encoder functions (2.3, 2.4) -/

/-- V-ENC-20. -/
theorem test_try_append_fits : resultOf (.tryAppend (.clearWindow panel))
    { ready [] [] with buf := List.replicate 10 0xBC } = some (.fits true) := by decide
theorem test_try_append_full : (stateOf (exec (.tryAppend (.clearWindow panel))
    { ready [] [] with buf := List.replicate 12 0xBC })).map (fun s => (s.result, s.buf.length)) =
    some (.fits false, 12) := by decide
/-- V-BAT-1, V-BAT-2. -/
theorem test_flush_empty : (stateOf (exec .flush (ready [] []))).map (·.trace) = some [] := by decide
theorem test_flush_suspends : (stateOf (exec .flush { ready [.ok] [] with buf := [0xBC] })).map
    (fun s => (s.dc, s.trace, s.buf)) = some (.low, [.pin .dc .low .ok], [0xBC]) := by decide
/-- V-BAT-3 and V-BAT-4, up to the first transfer. -/
theorem test_batch_first_cut : (stateOf (exec (.batch [.setFillEnabled true,
    .drawRectangle ⟨10, 10, 20, 10⟩ 1 2 3 4 5 6, .drawLine ⟨0, 0⟩ ⟨95, 63⟩ 0x3F 0 0, .noOp]) (ready [.ok] []))).map (·.buf) =
    some [0x26, 0x01, 0x22, 0x0A, 0x0A, 0x1D, 0x13, 1, 2, 3, 4, 5, 6] := by decide
theorem test_append_batched_full : (stateOf (exec (.appendBatched (.drawLine ⟨0, 0⟩ ⟨95, 63⟩ 0x3F 0 0))
    { ready [.ok] [] with buf := List.replicate 10 0xBC })).map (fun s => (s.buf.length, s.trace)) =
    some (10, [.pin .dc .low .ok]) := by decide
/-- V-SEND-3: the NoOp is not sent. -/
theorem test_send_faults_first : (stateOf (exec (.send [.noOp, .clearWindow ⟨0, 0, 5, 0⟩]) (ready [] []))).map
    (fun s => (s.trace, s.buf, s.life)) =
    some ([.fatal (.emptyRect (.clearWindow ⟨0, 0, 5, 0⟩))], [], .faulted) := by decide
/-- V-SEND-5's last step: the cache is not updated, the lifecycle is Indeterminate. -/
theorem test_send_bypass : (stateOf (step { ready [] [.ok] with
    buf := [0x15, 0, 7, 0x75, 0, 7]
    phase := .busy (.send [.addressRectangle ⟨0, 0, 8, 8⟩]) .flush [.setLife .indeterminate, .respond] })).map
    (fun s => (s.addr, s.life, s.buf, s.trace)) =
    some (panel, .indeterminate, [], [.bus .low [0x15, 0, 7, 0x75, 0, 7] .ok, .resp .ok]) := by decide

/-! ## The coordinate mapper (2.5) -/

theorem test_to_ram_column_major : resultOf (.toRam ⟨10, 20, 5, 7⟩ rot90) State.reset = some (.rect ⟨20, 10, 7, 5⟩) := by
  decide
theorem test_logical_size_column_major : resultOf (.logicalSize rot90) State.reset = some (.size 64 96) := by decide
theorem test_size : (stateOf (exec .size (ready [] []))).map (fun s => (s.result, s.trace)) =
    some (.size 96 64, []) := by decide
/-- V-MAP-6, V-MAP-7, V-MAP-8, V-MAP-9. -/
theorem test_in_logical : inLogical Params.adopted ⟨0, 0, 64, 96⟩ rot90 = true ∧
    inLogical Params.adopted panel rot90 = false ∧ inLogical Params.adopted ⟨32, 0, 64, 64⟩ rot0 = true ∧
    inLogical Params.adopted ⟨33, 0, 64, 64⟩ rot0 = false ∧ inLogical Params.adopted ⟨-1, 0, 4, 4⟩ rot0 = false := by decide

/-! ## INIT and WRITE (2.6, 2.7) -/

theorem test_init_starts : (stateOf (exec .init { State.reset with pins := [.ok] })).map
    (fun s => (s.life, s.rst, s.trace, s.buf)) = some (.initializing, .low, [.pin .rst .low .ok], []) := by decide
/-- V-INIT-8's buffer: the batch is pending when the transfer is in flight. -/
theorem test_init_batch_pending : (stateOf (step { State.reset with
    phase := .busy .init (.delay 1) ((initActs Params.adopted rot0).drop 5), pins := [.ok], delays := [.elapsed] })).map
    (fun s => (s.depth, s.addr, s.buf)) =
    some (.sixteen, panel, [0xA0, 0x72, 0x87, 5, 0x81, 0x80, 0x82, 0x50, 0x83, 0x80, 0x25, 0, 0, 0x5F, 0x3F, 0xAF]) := by decide
/-- V-WR-8. -/
theorem test_write_pin_failure : (stateOf (exec (.write [1] .eight ⟨0, 0, 8, 8⟩) (ready [.err ⟨7⟩] []))).map
    (fun s => (s.depth, s.addr, s.buf, s.dc, s.life)) =
    some (.eight, ⟨0, 0, 8, 8⟩, [0xA0, 0x32, 0x15, 0, 7, 0x75, 0, 7], .unknown, .indeterminate) := by decide
/-- V-WR-4. -/
theorem test_write_outside : (stateOf (exec (.write [] .sixteen ⟨33, 0, 64, 64⟩) (ready [] []))).map
    (fun s => (s.trace, s.life, s.addr)) = some ([.fatal (.writeArea ⟨33, 0, 64, 64⟩)], .faulted, panel) := by decide
/-- V-WR-12: three of the eight bytes were delivered. -/
theorem test_cancel_in_flight : (stateOf (step { ready [] [.cancel 3] with
    buf := [0xA0, 0x32, 0x15, 0, 7, 0x75, 0, 7]
    phase := .busy (.write [1] .eight ⟨0, 0, 8, 8⟩) .flush [.dataPhase [1], .respond] })).map
    (fun s => (s.buf, s.dc, s.life, s.wire)) =
    some ([0xA0, 0x32, 0x15, 0, 7, 0x75, 0, 7], .low, .indeterminate, wireOf .low [0xA0, 0x32, 0x15]) := by decide

/-! ## The pixel formats (2.8) -/

theorem test_make8 : resultOf (.make8 9 8 5) State.reset = some (.c8 ⟨1, 0, 1⟩) := by decide
theorem test_encode8 : resultOf (.encode8 ⟨5, 2, 1⟩) State.reset = some (.bytes [0xA9]) := by decide
theorem test_from_rgb_8 : resultOf (.fromRgb8 255 128 64) State.reset = some (.c8 ⟨7, 4, 1⟩) := by decide
theorem test_from_gray_8 : resultOf (.fromGray8 200) State.reset = some (.c8 ⟨6, 6, 3⟩) := by decide
theorem test_make16 : resultOf (.make16 33 64 1) State.reset = some (.c16 ⟨1, 0, 1⟩) := by decide
theorem test_encode16 : resultOf (.encode16 ⟨1, 2, 3⟩) State.reset = some (.bytes [0x08, 0x43]) := by decide
theorem test_from_rgb_16 : resultOf (.fromRgb16 255 128 64) State.reset = some (.c16 ⟨31, 32, 8⟩) := by decide
theorem test_from_gray_16 : resultOf (.fromGray16 200) State.reset = some (.c16 ⟨25, 50, 25⟩) := by decide

/-! ## The parameters (00_scope.md R7, 10_state.md R113 to R115) -/

theorem test_adopted_parameters_wf : Params.adopted.Wf := by decide
theorem test_default_configuration : Params.adopted.defaultCfg = rot0 := by decide

/-! ## Witnesses: a state and operands that meet each obligation's hypotheses -/

/-- Every obligation whose only hypothesis is `Accepts s`: MasterCurrent, PlainCommands, Remap, DrawLine, Clamp,
MadeColours, EncodeEight, EncodeSixteen, EightBitReduction, SixteenBitReduction, EveryAcceptedCallStarts. -/
theorem witness_accepts : Accepts State.reset := by decide

/-- ClearWindowReturnsCornersOrFaults, AddressRectangleReturnsRangesOrFaults: empty; a corner at COORD_MAX; one beyond. -/
theorem witness_rectangle_clauses : Accepts State.reset ∧ (⟨0, 0, 0, 1⟩ : Rect).w = 0 ∧
    ((2147483647 : Int) + (1 : Nat) - 1 ≤ State.reset.par.coordMax ∧ State.reset.par.coordMin ≤ (2147483647 : Int) + (1 : Nat) - 1) ∧
    ¬((2147483647 : Int) + (2 : Nat) - 1 ≤ State.reset.par.coordMax) := by decide

/-- DrawRectangleReturnsCornersOrFaults: an empty rectangle whose corner is in range, and one whose corner is below. -/
theorem witness_draw_rectangle_clauses : Accepts State.reset ∧
    State.reset.par.coordMin ≤ (-2147483647 : Int) + (0 : Nat) - 1 ∧
    ¬(State.reset.par.coordMin ≤ (-2147483648 : Int) + (0 : Nat) - 1) := by decide

/-- DecodeOfEncodeIsTheCommand, StreamSplitsIntoItsCommands. -/
theorem witness_canonical : Params.adopted.CodesWf ∧ Params.adopted.RangesWf ∧
    (Command.clearWindow ⟨255, 0, 256, 1⟩).canonical = true ∧
    encAll Params.adopted [.clearWindow ⟨255, 0, 256, 1⟩, .noOp] = .ok [[0x25, 255, 0, 254, 0], [0xBC]] := by decide

/-- EncodeOfDecodeIsTheWord. -/
theorem witness_decoded_word : Params.adopted.RangesWf ∧
    decode Params.adopted [0x22, 0x0A, 0x0A, 0x09, 0x0E, 0, 0, 0, 0, 0, 0, 0xBC] =
      .ok (.drawRectangle ⟨10, 10, 256, 5⟩ 0 0 0 0 0 0, [0xBC]) := by decide

/-- FlagsIsInjective. -/
theorem witness_flags : Params.adopted.CodesWf ∧
    flags Params.adopted rot0 .eight = flags Params.adopted rot0 .eight := by decide

/-- TryAppendAppendsWholeOrNotAtAll: exactly full; one too many; a fatal command. -/
theorem witness_try_append : Accepts { ready [] [] with buf := List.replicate 11 0xBC } ∧
    enc Params.adopted (.clearWindow panel) = .ok [0x25, 0, 0, 0x5F, 0x3F] ∧
    (List.replicate 11 (0xBC : Byte)).length + 5 ≤ Params.adopted.cap ∧
    Params.adopted.cap < (List.replicate 12 (0xBC : Byte)).length + 5 ∧
    enc Params.adopted (.clearWindow ⟨0, 0, 0, 1⟩) = .error (.emptyRect (.clearWindow ⟨0, 0, 0, 1⟩)) := by decide

/-- FlushTransmitsTheWholeBufferOrKeepsIt: each clause. -/
theorem witness_flush : Accepts { ready [.ok] [.ok] with buf := [0xBC] } ∧
    Accepts { ready [.err ⟨1⟩] [] with buf := [0xBC] } ∧ Accepts { ready [.ok] [.err ⟨1⟩ 0] with buf := [0xBC] } ∧
    ([0xBC] : List Byte) ≠ [] ∧ (ready [] []).buf = [] ∧
    Accepts { ready [] [.ok] with buf := [0xBC] } ∧ (ready [] [.ok]).pins = [] := by decide

/-- AppendBatchedFlushesAtMostOnce: exactly full; one byte too many. -/
theorem witness_append_batched : Accepts { ready [.ok] [.ok] with buf := List.replicate 16 0xBC } ∧
    enc Params.adopted .noOp = .ok [0xBC] ∧ (List.replicate 15 (0xBC : Byte)).length + 1 ≤ Params.adopted.cap ∧
    Params.adopted.cap < (List.replicate 16 (0xBC : Byte)).length + 1 ∧ 1 ≤ Params.adopted.cap := by decide

/-- CommandLongerThanCapacityIsFatal: a non-conforming instance of capacity 10 (V-BAT-5), with an empty buffer and with
a pending byte. -/
theorem witness_too_large : Accepts { ready [] [] with par := { Params.adopted with cap := 10 } } ∧
    ({ ready [] [] with par := { Params.adopted with cap := 10 } } : State).buf = [] ∧ Accepts { ready [.ok] [.ok] with par := { Params.adopted with cap := 10 }, buf := [0xBC] } ∧
    enc { Params.adopted with cap := 10 } (.drawRectangle ⟨0, 0, 1, 1⟩ 0 0 0 0 0 0) = .ok [0x22, 0, 0, 0, 0, 0, 0, 0, 0, 0, 0] ∧
    10 < ([0x22, 0, 0, 0, 0, 0, 0, 0, 0, 0, 0] : List Byte).length := by decide

/-- BatchIsCutGreedily, SendBatchesAndKeepsTheCache: two segments. -/
theorem witness_batch : Accepts (ready [.ok, .ok] [.ok, .ok]) ∧ 11 ≤ Params.adopted.cap ∧
    encAll Params.adopted [.drawRectangle ⟨10, 10, 20, 10⟩ 1 2 3 4 5 6, .contrast 1 2 3] =
      .ok [[0x22, 0x0A, 0x0A, 0x1D, 0x13, 1, 2, 3, 4, 5, 6], [0x81, 1, 0x82, 2, 0x83, 3]] ∧
    (ready [.ok, .ok] [.ok, .ok]).pins = List.replicate (segments Params.adopted.cap []
      [[0x22, 0x0A, 0x0A, 0x1D, 0x13, 1, 2, 3, 4, 5, 6], [0x81, 1, 0x82, 2, 0x83, 3]]).length .ok ++ [] ∧
    (ready [.ok, .ok] [.ok, .ok]).buses = List.replicate (segments Params.adopted.cap []
      [[0x22, 0x0A, 0x0A, 0x1D, 0x13, 1, 2, 3, 4, 5, 6], [0x81, 1, 0x82, 2, 0x83, 3]]).length .ok ++ [] := by decide

/-- SendBatchesAndKeepsTheCache: a list that bypasses the cache, one segment (V-SEND-5). -/
theorem witness_send_bypass : Accepts (ready [.ok] [.ok]) ∧
    encAll Params.adopted [.noOp, .addressRectangle ⟨0, 0, 8, 8⟩] = .ok [[0xBC], [0x15, 0, 7, 0x75, 0, 7]] ∧
    ([.noOp, .addressRectangle ⟨0, 0, 8, 8⟩] : List Command).any Command.bypassesCache = true ∧
    (segments Params.adopted.cap [] [[0xBC], [0x15, 0, 7, 0x75, 0, 7]]).length = 1 := by decide

/-- GreedyCutIsExactAndWithinCapacity. -/
theorem witness_cut : 11 ≤ Params.adopted.cap ∧ (List.replicate 16 (0xBC : Byte)).length ≤ Params.adopted.cap ∧
    encAll Params.adopted [.noOp] = .ok [[0xBC]] := by decide

/-- SendFaultsBeforeAnyEvent: the second command of three. -/
theorem witness_send_fault : Accepts (ready [] []) ∧ encAll Params.adopted [.noOp] = .ok [[0xBC]] ∧
    enc Params.adopted (.addressRectangle ⟨0, 0, 0, 1⟩) = .error (.emptyRect (.addressRectangle ⟨0, 0, 0, 1⟩)) := by decide

/-- ToRamIsIdentityOrTranspose, SizeIsSwappedWhenColumnMajor, ToRamIsAnInvolutionOfThePixelOrder: both orders, in the
operand and in the instance. -/
theorem witness_orders : rot0.order = .rowMajor ∧ rot90.order = .columnMajor ∧
    Accepts { ready [] [] with cfg := rot90 } ∧ rot0.order = (Preset.adopted .rot180).order := by decide

/-- A recovery INIT over stale bytes that are kept (V-INIT-5), with every answer Ok. -/
def recovery : State :=
  { ready [.ok, .ok, .ok, .ok] [.ok, .ok] with
    par := { Params.adopted with initClearsBuffer := false }, buf := [0xA0, 0x32, 0x15, 0, 7, 0x75, 0, 7],
    life := .indeterminate, delays := [.elapsed, .elapsed, .elapsed] }

/-- InitLeavesTheBlockReady: stale bytes, two segments. -/
theorem witness_init : Accepts recovery ∧ recovery.par.Wf ∧
    (let n := (segments recovery.par.cap recovery.buf (initEncodings recovery.par recovery.cfg)).length
     n = 2 ∧ recovery.pins = List.replicate (n + 2) .ok ++ [] ∧ recovery.buses = List.replicate n .ok ++ [] ∧
     recovery.delays = List.replicate 3 .elapsed ++ []) := by decide

/-- AdoptedInitIsSixteenBytesInOneTransfer: the block after reset. -/
theorem witness_adopted_init :
    Accepts { State.reset with pins := [.ok, .ok, .ok], buses := [.ok], delays := [.elapsed, .elapsed, .elapsed] } ∧
    State.reset.par = Params.adopted ∧ State.reset.cfg = Preset.adopted .rot0 := by decide

/-- A Ready block with `n` NoOps waiting, whose second PinSet fails. -/
def fullBuffer (n : Nat) : State := { ready [.ok, .err ⟨1⟩] [.ok] with buf := List.replicate n 0xBC }

/-- FailedFlushEndsEveryCaller: APPEND_BATCHED; the second FLUSH of BATCH, of SEND, of INIT and of WRITE. -/
theorem witness_failed_flush :
    (Accepts { ready [.err ⟨1⟩] [] with buf := List.replicate 16 0xBC } ∧ enc Params.adopted .noOp = .ok [0xBC] ∧
      Params.adopted.cap < (List.replicate 16 (0xBC : Byte)).length + 1) ∧
    (Accepts (fullBuffer 16) ∧ encAll (fullBuffer 16).par [.noOp] = .ok [[0xBC]] ∧
      segments (fullBuffer 16).par.cap (fullBuffer 16).buf [[0xBC]] = [List.replicate 16 0xBC] ++ [0xBC] :: [] ∧
      (fullBuffer 16).pins = List.replicate 1 .ok ++ .err ⟨1⟩ :: [] ∧ (fullBuffer 16).buses = List.replicate 1 .ok ++ []) ∧
    (Accepts { recovery with pins := [.ok, .ok, .ok, .err ⟨1⟩] } ∧
      segments recovery.par.cap recovery.buf (initEncodings recovery.par recovery.cfg) =
        [[0xA0, 0x32, 0x15, 0, 7, 0x75, 0, 7, 0xA0, 0x72, 0x87, 5]] ++
          [0x81, 0x80, 0x82, 0x50, 0x83, 0x80, 0x25, 0, 0, 0x5F, 0x3F, 0xAF] :: [] ∧
      ({ recovery with pins := [.ok, .ok, .ok, .err ⟨1⟩] } : State).pins = .ok :: .ok :: (List.replicate 1 .ok ++ .err ⟨1⟩ :: []) ∧
      recovery.buses = List.replicate 1 .ok ++ [.ok] ∧ recovery.delays = .elapsed :: .elapsed :: [.elapsed]) ∧
    ((fullBuffer 16).par.Wf ∧ inLogical (fullBuffer 16).par ⟨0, 0, 8, 8⟩ (fullBuffer 16).cfg = true ∧
      segments (fullBuffer 16).par.cap (fullBuffer 16).buf
          (writeEncodings (fullBuffer 16).par (fullBuffer 16).cfg .sixteen panel .eight ⟨0, 0, 8, 8⟩) =
        [List.replicate 16 0xBC] ++ [0xA0, 0x32, 0x15, 0, 7, 0x75, 0, 7] :: []) := by decide

/-- FailedResetPulseLeavesTheCache. -/
theorem witness_init_pin_failure : Accepts { State.reset with pins := [.err ⟨1⟩] } ∧
    Accepts { State.reset with pins := [.ok, .err ⟨1⟩], delays := [.elapsed] } := by decide

/-- WriteOutsideLogicalBoundsIsFatal: one column too far (V-WR-4). -/
theorem witness_write_outside : Accepts (ready [] []) ∧
    ¬((33 : Int) + (64 : Nat) ≤ if (ready [] []).cfg.order = .rowMajor then (ready [] []).par.panelW
      else (ready [] []).par.panelH) := by decide

/-- FailedWriteLeavesADefiniteState over stale bytes: the first FLUSH before RemapAndColorDepth is enqueued (nothing new),
before AddressRectangle is (the depth new), and the final one (both new). -/
theorem witness_failed_write :
    (segments 16 (fullBuffer 15).buf (writeEncodings Params.adopted rot0 .sixteen panel .eight ⟨0, 0, 8, 8⟩) =
        [] ++ List.replicate 15 0xBC :: [[0xA0, 0x32, 0x15, 0, 7, 0x75, 0, 7]] ∧
      ((fullBuffer 15).enqueued .eight ⟨0, 0, 8, 8⟩ 15).depth = .sixteen ∧
      ((fullBuffer 15).enqueued .eight ⟨0, 0, 8, 8⟩ 15).addr = panel) ∧
    (segments 16 (fullBuffer 14).buf (writeEncodings Params.adopted rot0 .sixteen panel .eight ⟨0, 0, 8, 8⟩) =
        [] ++ (List.replicate 14 0xBC ++ [0xA0, 0x32]) :: [[0x15, 0, 7, 0x75, 0, 7]] ∧
      ((fullBuffer 14).enqueued .eight ⟨0, 0, 8, 8⟩ 16).depth = .eight ∧
      ((fullBuffer 14).enqueued .eight ⟨0, 0, 8, 8⟩ 16).addr = panel) ∧
    (segments 16 (fullBuffer 1).buf (writeEncodings Params.adopted rot0 .sixteen panel .eight ⟨0, 0, 8, 8⟩) =
        [] ++ [0xBC, 0xA0, 0x32, 0x15, 0, 7, 0x75, 0, 7] :: [] ∧
      ((fullBuffer 1).enqueued .eight ⟨0, 0, 8, 8⟩ 9).depth = .eight ∧
      ((fullBuffer 1).enqueued .eight ⟨0, 0, 8, 8⟩ 9).addr = ⟨0, 0, 8, 8⟩) := by decide

/-- FailedWriteLeavesADefiniteState: the answers of its four clauses over 15 stale bytes, which the cut of
`witness_failed_write` puts into two transfers (the failing one the first, or the data phase). -/
theorem witness_failed_write_answers :
    (let s : State := { fullBuffer 15 with pins := [.err ⟨1⟩], buses := [] }
     Accepts s ∧ s.par.Wf ∧ inLogical s.par ⟨0, 0, 8, 8⟩ s.cfg = true ∧
      s.pins = List.replicate 0 .ok ++ .err ⟨1⟩ :: [] ∧ s.buses = List.replicate 0 .ok ++ []) ∧
    (let s : State := { fullBuffer 15 with pins := [.ok], buses := [.err ⟨1⟩ 3] }
     Accepts s ∧ s.pins = List.replicate (0 + 1) .ok ++ [] ∧ s.buses = List.replicate 0 .ok ++ .err ⟨1⟩ 3 :: []) ∧
    (let s : State := { fullBuffer 15 with pins := [.ok, .ok, .err ⟨1⟩], buses := [.ok, .ok] }
     Accepts s ∧ s.pins = List.replicate 2 .ok ++ .err ⟨1⟩ :: [] ∧ s.buses = List.replicate 2 .ok ++ []) ∧
    (let s : State := { fullBuffer 15 with pins := [.ok, .ok, .ok], buses := [.ok, .ok, .err ⟨1⟩ 0] }
     Accepts s ∧ s.pins = List.replicate (2 + 1) .ok ++ [] ∧ s.buses = List.replicate 2 .ok ++ .err ⟨1⟩ 0 :: []) := by decide

/-- WriteHasFourEventShapes: the four shapes' command bytes. -/
theorem witness_write_shapes : Accepts (ready [.ok, .ok] [.ok, .ok]) ∧ (ready [] []).par.Wf ∧ (ready [] []).buf = [] ∧
    inLogical Params.adopted panel rot0 = true ∧ inLogical Params.adopted ⟨32, 0, 64, 64⟩ rot0 = true ∧
    depthBytes Params.adopted rot0 .sixteen .sixteen ++ addressBytes panel (toRam panel rot0) = [] ∧
    depthBytes Params.adopted rot0 .sixteen .eight ++ addressBytes panel (toRam panel rot0) = [0xA0, 0x32] ∧
    addressBytes panel (toRam ⟨32, 0, 64, 64⟩ rot0) = [0x15, 0x20, 0x5F, 0x75, 0x00, 0x3F] := by decide

/-- WriteThatReturnsOkSentExactlyWhatDiffered, RepeatedWriteSendsDataOnly. -/
theorem witness_write_completes : (ready [.ok, .ok] [.ok, .ok]).par.Wf ∧
    ∃ t, CompletesIn 1 (.write [1] .sixteen panel) (ready [.ok, .ok] [.ok, .ok]) t ∧ t.result = .unit ∧
      t.pins = [.ok] ∧ t.buses = [.ok] := by
  exact ⟨by decide, _, ⟨_, rfl, rfl, by decide⟩, rfl, rfl, rfl⟩

/-- WriteThatReturnsOkSentExactlyWhatDiffered: both the depth and the area differ. -/
theorem witness_write_both_differ :
    ∃ t, CompletesIn 2 (.write [1] .eight ⟨0, 0, 8, 8⟩) (ready [.ok, .ok] [.ok, .ok]) t ∧ t.result = .unit :=
  ⟨_, ⟨_, rfl, rfl, by decide⟩, rfl⟩

/-- WriteIgnoresItsDataUntilTheDataPhase has no hypothesis: its first case, through both transfers to the end. -/
theorem witness_write_data : ∃ t t', callIn 2 (.write [1] .eight ⟨0, 0, 8, 8⟩) (ready [.ok, .ok] [.ok, .ok]) = .next t ∧
    callIn 2 (.write [2, 3] .eight ⟨0, 0, 8, 8⟩) (ready [.ok, .ok] [.ok, .ok]) = .next t' ∧ t.Final ∧ t'.Final :=
  ⟨_, _, rfl, rfl, by decide, by decide⟩

/-- FailedTransferEndsTheRequest, CancellationLeavesEveryOtherRegister: each resumption point. -/
theorem witness_resumption_points :
    (suspended .flush .flush [.ret] (.err ⟨1⟩ 1) .cancel).life ≠ .faulted ∧
    (suspended .flush .flush [.ret] (.err ⟨1⟩ 1) .cancel).phase = .busy .flush .flush [.ret] ∧
    (suspended (.write [1] .eight panel) (.data [1]) [.respond] (.cancel 9) .cancel).phase =
      .busy (.write [1] .eight panel) (.data [1]) [.respond] ∧
    (suspended .init (.delay 1) [.respond] .ok .cancel).delays = [.cancel] := by decide

/-- UnansweredAwaitHasNoStep, CallWhileBusyHasNoStep. -/
theorem witness_hang : { ready [] [] with phase := .busy .flush .flush [.ret], buf := [0xBC] }.life ≠ .faulted ∧
    (ready [] []).buses = [] ∧ (ready [] []).delays = [] := by decide

/-- FaultedBlockTakesNoStep. -/
theorem witness_faulted : { ready [] [] with life := .faulted }.life = .faulted := by decide

/-- StepRunsTheDecodedInstruction: two commands' bytes at the port; StepRunsThePendingCall. -/
theorem witness_port : Accepts { ready [] [] with port := [.word [0xAF, 0xBC]] } ∧
    decode Params.adopted [0xAF, 0xBC] = .ok (.displayOn true, [0xBC]) ∧
    wellFormed Params.adopted (.displayOn true) = true ∧ Accepts { ready [] [] with port := [.call .size] } ∧
    wellFormed Params.adopted .size = true := by decide

/-- A state of no events and an empty buffer meets the invariant when its phase does. -/
theorem inv_of_ready {s : State} (hp : s.par.Wf) (hb : s.buf = []) (ha : inPanel s.par s.addr = true) (ht : s.trace = [])
    (hph : PhaseOk s) : Inv s :=
  ⟨hp, by simp [hb], by rw [hb]; exact wholeCommands_nil _, ha, fun _ => hph, by simp [ht]⟩

/-- StepKeepsTheInvariant, ConfigurationNeverChanges, TraceAndWireOnlyGrow, LifecycleIsNeverRead: a step of INIT; and
OnlyInitDrivesReset: it drives RST. -/
theorem witness_init_step : Inv { State.reset with port := [.call .init], pins := [.ok] } ∧
    ∃ t, step { State.reset with port := [.call .init], pins := [.ok] } = .next t ∧
      t.rst ≠ ({ State.reset with port := [.call .init], pins := [.ok] } : State).rst :=
  ⟨inv_of_ready (by decide) rfl (by decide) rfl trivial, _, rfl, by decide⟩

/-- OnlyInitDrivesReset: INIT drives RST Low where it is Low already. -/
theorem witness_redundant_drive : Inv { State.reset with port := [.call .init], pins := [.ok], rst := .low } ∧
    ∃ t, step { State.reset with port := [.call .init], pins := [.ok], rst := .low } = .next t ∧
      t.rst = .low ∧ t.trace = [] ++ [.pin .rst .low .ok] :=
  ⟨inv_of_ready (by decide) rfl (by decide) rfl trivial, _, rfl, rfl, rfl⟩

/-- Synced of a state in which a RemapAndColorDepth and an AddressRectangle went out after INIT and a NoOp waits. -/
theorem witness_synced : Synced { ready [] [] with
    depth := .eight, addr := ⟨0, 0, 8, 8⟩, buf := [0xBC]
    trace := [.delay 1, .resp .ok, .bus .low [0xA0, 0x32, 0x15, 0, 7, 0x75, 0, 7] .ok, .bus .high [1] .ok] } :=
  ⟨[.remapAndColorDepth rot0 .eight, .addressRectangle ⟨0, 0, 8, 8⟩], [[0xA0, 0x32], [0x15, 0, 7, 0x75, 0, 7]],
    [.noOp], [[0xBC]], by decide⟩

/-- CacheIsWhatWasLastSentWhileReady: a Ready block, and a call that ends with the block Ready. -/
theorem witness_coherent : Inv { ready [] [] with port := [.call .size] } ∧
    Coherent { ready [] [] with port := [.call .size] } ∧
    (∀ i, State.running { ready [] [] with port := [.call .size] } = some i → i.bypassesAlone = false) ∧
    ∃ t, step { ready [] [] with port := [.call .size] } = .next t ∧ t.Final ∧ t.life = .ready :=
  ⟨inv_of_ready (by decide) rfl (by decide) rfl trivial,
   (coherent_of_final (by decide)).2 fun _ => ⟨[], [], [], [], by decide⟩,
   by rintro i ⟨⟩; rfl, _, rfl, by decide⟩

/-- OnlyInitAndWriteChangeTheCache: INIT's cache reset. -/
theorem witness_cache_change :
    Inv { State.reset with phase := .busy .init (.delay 1) [.resetCache, .respond], delays := [.elapsed] } ∧
    ∃ t, step { State.reset with phase := .busy .init (.delay 1) [.resetCache, .respond], delays := [.elapsed] } = .next t ∧
      t.depth ≠ State.reset.depth :=
  ⟨inv_of_ready (by decide) rfl (by decide) rfl
    ⟨rfl, by intro a h; simp at h; rcases h with rfl | rfl <;> simp [Act.Allowed, Instr.isInit]⟩, _, rfl, by decide⟩

/-- OnlyInitRestoresTrust: to Ready, and out of Indeterminate. -/
theorem witness_trust :
    (Inv { State.reset with phase := .busy .init (.delay 1) [.setLife .ready, .respond], delays := [.elapsed] } ∧
      ∃ t, step { State.reset with phase := .busy .init (.delay 1) [.setLife .ready, .respond], delays := [.elapsed] } =
        .next t ∧ t.life = .ready) ∧
    (Inv { State.reset with port := [.call .init], pins := [.ok], life := .indeterminate } ∧
      ∃ t, step { State.reset with port := [.call .init], pins := [.ok], life := .indeterminate } = .next t ∧
        t.life = .initializing) :=
  ⟨⟨inv_of_ready (by decide) rfl (by decide) rfl
    ⟨rfl, by intro a h; simp at h; rcases h with rfl | rfl <;> simp [Act.Allowed, Instr.isInit]⟩, _, rfl, rfl⟩,
   ⟨inv_of_ready (by decide) rfl (by decide) rfl trivial, _, rfl, rfl⟩⟩

/-- ConstructionMeetsTheInvariant. -/
theorem witness_construction : Params.adopted.Wf ∧ inPanel Params.adopted ⟨95, 63, 1, 1⟩ = true := by decide

/-- PixelSequencesConcatenate (V-PX-10). -/
theorem witness_pixels : ([⟨31, 0, 0⟩, ⟨0, 0, 31⟩] : List C16)[1]? = some ⟨0, 0, 31⟩ ∧
    encodeSeq16 [⟨31, 0, 0⟩, ⟨0, 0, 31⟩] = [0xF8, 0x00, 0x00, 0x1F] := by decide

end Sys2Proof.Tests
end

section
/-! PROOFS of the family 10_state.md: the state, its invariant, and what every step keeps. -/

namespace Sys2Proof.Machine

/-! ## How a call begins -/

theorem accept_faulted {s : State} (h : s.life = .faulted) (f : State → State) : accept s f = .fault .blockFaulted := by
  simp [accept, h]

theorem accept_busy {s : State} {op : Instr} {pt : AwaitPoint} {k : List Act} (hl : s.life ≠ .faulted)
    (hp : s.phase = .busy op pt k) (f : State → State) : accept s f = .refused .requestWhileBusy := by
  simp [accept, hl, hp]

/-- What is accepted matters only through what it makes of the state at hand. -/
theorem accept_congr {s : State} {f g : State → State} (h : f s = g s) : accept s f = accept s g := by
  simp only [accept, h]

/-- What a call does once it is accepted: it returns a value and leaves this buffer, it raises a fatal fault, or it runs
these lines of pseudocode. -/
inductive CallStart where
  | ret (buf : List Byte) (v : Result)
  | raise (f : Fatal)
  | run (k : List Act)

/-- The state that the beginning of a call of `i` makes. -/
def CallStart.begin (i : Instr) : CallStart → State → State
  | .ret buf v, s => (s.setBuf buf).ret v
  | .raise f, s => s.raise f
  | .run k, s => runActs i k s

/-- The fatal faults and the lines of pseudocode that a call of `i` may begin with. -/
def CallStart.Allowed (p : Params) (i : Instr) : CallStart → Prop
  | .ret _ _ => True
  | .raise f => Event.Ok p (.fatal f)
  | .run k => ActsAllowed p i k

/-- No encoding raises FATAL_CMD_TOO_LARGE (41_command_encoder.md R401). -/
theorem enc_error_ok {p : Params} {c : Command} {f : Fatal} (h : enc p c = .error f) : Event.Ok p (.fatal f) := by
  have rect : ∀ r g, withRect4 p c r g = .error f → Event.Ok p (.fatal f) := by
    intro r g hr
    unfold withRect4 at hr
    split at hr <;> cases hr
    trivial
  have nonEmpty : ∀ r g, withNonEmptyRect4 p c r g = .error f → Event.Ok p (.fatal f) := by
    intro r g hr
    unfold withNonEmptyRect4 at hr
    split at hr
    · cases hr; trivial
    · exact rect r g hr
  cases c
  case clearWindow r => exact nonEmpty _ _ h
  case addressRectangle r => exact nonEmpty _ _ h
  case drawRectangle r _ _ _ _ _ _ => exact rect _ _ h
  all_goals cases h

theorem encAll_error_ok {p : Params} {cs : List Command} {f : Fatal} (h : encAll p cs = .error f) :
    Event.Ok p (.fatal f) := by
  induction cs with
  | nil => cases h
  | cons c cs ih =>
    unfold encAll at h
    split at h
    · cases h; exact enc_error_ok ‹_›
    · split at h
      · cases h; exact ih ‹_›
      · cases h

/-! ### The pseudocode of each operation is allowed -/

@[simp] theorem actsAllowed_nil (p : Params) (op : Instr) : ActsAllowed p op [] := by simp [ActsAllowed]

@[simp] theorem actsAllowed_cons {p : Params} {op : Instr} {a : Act} {k : List Act} :
    ActsAllowed p op (a :: k) ↔ Act.Allowed p op a ∧ ActsAllowed p op k := by simp [ActsAllowed]

@[simp] theorem actsAllowed_append {p : Params} {op : Instr} {k k' : List Act} :
    ActsAllowed p op (k ++ k') ↔ ActsAllowed p op k ∧ ActsAllowed p op k' := by
  simp only [ActsAllowed, List.mem_append, or_imp, forall_and]

theorem batchActs_allowed (p : Params) (op : Instr) (cmds : List Command) : ActsAllowed p op (batchActs cmds) := by
  intro a ha
  obtain ⟨c, -, rfl⟩ | rfl : (∃ c ∈ cmds, Act.append c = a) ∨ a = .flush := by simpa [batchActs] using ha
  all_goals trivial

theorem sendActs_allowed (p : Params) (cmds : List Command) : ActsAllowed p (.send cmds) (sendActs cmds) := by
  unfold sendActs
  split <;> simp [batchActs_allowed, Act.Allowed, Instr.isSend]

theorem initActs_allowed (p : Params) (cfg : OrientationConfig) : ActsAllowed p .init (initActs p cfg) := by
  simp [initActs, batchActs_allowed, Act.Allowed, Instr.isInit]

/-- A rectangle inside the logical bounds is mapped into the panel (42_coordinate_mapper.md R450, R452, R453). -/
theorem inPanel_toRam {p : Params} {r : Rect} {cfg : OrientationConfig} (h : inLogical p r cfg = true) :
    inPanel p (toRam r cfg) = true := by
  cases hc : cfg.order with
  | rowMajor => simpa [inLogical, logicalSize, inPanel, toRam, hc] using h
  | columnMajor =>
    simp only [inLogical, logicalSize, hc, Rect.within, Bool.and_eq_true, decide_eq_true_eq] at h
    simp only [inPanel, toRam, hc, Rect.within, Bool.and_eq_true, decide_eq_true_eq]
    omega

theorem writeActs_allowed {p : Params} {area : Rect} {cfg : OrientationConfig} (h : inLogical p area cfg = true)
    (curDepth : BitDepth) (curAddr : Rect) (data : List Byte) (depth : BitDepth) :
    ActsAllowed p (.write data depth area) (writeActs cfg curDepth curAddr data depth area) := by
  unfold writeActs
  split <;> split <;> simp [Act.Allowed, Instr.isWrite, inPanel_toRam h]

/-! ### Every call begins in one of the three ways -/

/-- The state with its own lifecycle put back. -/
@[simp] theorem State.setLife_self (s : State) : s.setLife s.life = s := rfl

section
variable (s : State)

/-- The call that `f` gives a meaning begins in one allowed way, whatever the lifecycle. -/
def BeginsAllowed (i : Instr) (f : State → Host.Outcome State Fault Refusal) : Prop :=
  ∃ e : CallStart, e.Allowed s.par i ∧ ∀ l, f (s.setLife l) = accept (s.setLife l) (e.begin i)

theorem encodeCall_begins (i : Instr) (c : Command) : BeginsAllowed s i (encodeCall c) := by
  cases h : enc s.par c with
  | ok b => exact ⟨.ret s.buf (.bytes b), trivial, fun l => accept_congr (by simp [h]; rfl)⟩
  | error f => exact ⟨.raise f, enc_error_ok h, fun l => accept_congr (by simp [h]; rfl)⟩

theorem execTryAppend_begins (c : Command) : BeginsAllowed s (.tryAppend c) (execTryAppend c) := by
  cases h : enc s.par c with
  | error f => exact ⟨.raise f, enc_error_ok h, fun l => accept_congr (by simp [tryAppend, h]; rfl)⟩
  | ok b =>
    by_cases hb : s.buf.length + b.length ≤ s.par.cap
    · exact ⟨.ret (s.buf ++ b) (.fits true), trivial, fun l => accept_congr (by simp [tryAppend, h, hb]; rfl)⟩
    · exact ⟨.ret s.buf (.fits false), trivial, fun l => accept_congr (by simp [tryAppend, h, hb]; rfl)⟩

theorem execSend_begins (cmds : List Command) : BeginsAllowed s (.send cmds) (execSend cmds) := by
  cases h : encAll s.par cmds with
  | ok b => exact ⟨.run (sendActs cmds), sendActs_allowed _ _, fun l => accept_congr (by simp [h]; rfl)⟩
  | error f => exact ⟨.raise f, encAll_error_ok h, fun l => accept_congr (by simp [h]; rfl)⟩

theorem execWrite_begins (data : List Byte) (depth : BitDepth) (area : Rect) :
    BeginsAllowed s (.write data depth area) (execWrite data depth area) := by
  by_cases h : inLogical s.par area s.cfg = true
  · exact ⟨.run _, writeActs_allowed h s.depth s.addr data depth, fun l => accept_congr (by simp [h]; rfl)⟩
  · exact ⟨.raise (.writeArea area), trivial, fun l => accept_congr (by simp [h]; rfl)⟩

theorem runs_begin {i : Instr} {k : List Act} (hk : ActsAllowed s.par i k) :
    BeginsAllowed s i fun u => accept u (runActs i k) :=
  ⟨.run k, hk, fun _ => rfl⟩

theorem ret_begins (i : Instr) (v : Params → OrientationConfig → Result) :
    BeginsAllowed s i fun u => accept u fun u => u.ret (v u.par u.cfg) :=
  ⟨.ret s.buf (v s.par s.cfg), trivial, fun _ => accept_congr rfl⟩

/-- A command's row run as a call returns the command's encoding or takes its fatal fault (log 1). -/
theorem exec_of_command {i : Instr} {c : Command} (h : i.command? = some c) : exec i = encodeCall c := by
  funext s
  cases i <;> cases h <;> rfl

/-- The one pass over the rows of exec: every other fact about calls here is drawn from it. -/
theorem exec_begins (i : Instr) : BeginsAllowed s i (exec i) := by
  cases hc : i.command? with
  | some c => exact exec_of_command hc ▸ encodeCall_begins s i c
  | none =>
    cases i
    case init => exact ⟨.run _, initActs_allowed s.par s.cfg, fun _ => accept_congr rfl⟩
    case write data depth area => exact execWrite_begins s data depth area
    case send cmds => exact execSend_begins s cmds
    case tryAppend c => exact execTryAppend_begins s c
    case flush => exact runs_begin s (by simp [Act.Allowed])
    case appendBatched c => exact runs_begin s (by simp [Act.Allowed])
    case batch cmds => exact runs_begin s (by simp [batchActs_allowed, Act.Allowed])
    case size => exact ret_begins s _ fun p cfg => .size (Sys2Proof.logicalSize p cfg).1 (Sys2Proof.logicalSize p cfg).2
    case logicalSize cfg =>
      exact ret_begins s _ fun p _ => .size (Sys2Proof.logicalSize p cfg).1 (Sys2Proof.logicalSize p cfg).2
    case clamp v => exact ret_begins s _ fun _ _ => .byte (Sys2Proof.clamp v)
    case toRam r cfg => exact ret_begins s _ fun _ _ => .rect (Sys2Proof.toRam r cfg)
    case make8 r g b => exact ret_begins s _ fun _ _ => .c8 (Sys2Proof.make8 r g b)
    case encode8 c => exact ret_begins s _ fun _ _ => .bytes (Sys2Proof.encode8 c)
    case fromRgb8 r g b => exact ret_begins s _ fun _ _ => .c8 (Sys2Proof.fromRgb8 r g b)
    case fromGray8 l => exact ret_begins s _ fun _ _ => .c8 (Sys2Proof.fromGray8 l)
    case make16 r g b => exact ret_begins s _ fun _ _ => .c16 (Sys2Proof.make16 r g b)
    case encode16 c => exact ret_begins s _ fun _ _ => .bytes (Sys2Proof.encode16 c)
    case fromRgb16 r g b => exact ret_begins s _ fun _ _ => .c16 (Sys2Proof.fromRgb16 r g b)
    case fromGray16 l => exact ret_begins s _ fun _ _ => .c16 (Sys2Proof.fromGray16 l)
    all_goals cases hc

end

/-- Every call goes through the one acceptance check (10_state.md R131, R134). -/
theorem exec_eq_accept (i : Instr) (s : State) : ∃ f, exec i s = accept s f := by
  obtain ⟨e, -, h⟩ := exec_begins s i
  exact ⟨e.begin i, h s.life⟩

theorem exec_next {i : Instr} {s t : State} (h : exec i s = .next t) :
    ∃ e : CallStart, e.Allowed s.par i ∧ t = e.begin i s := by
  obtain ⟨e, he, hl⟩ := exec_begins s i
  exact ⟨e, he, (accept_next.1 (hl s.life ▸ h)).2⟩

/-- Settles O39: no call passes the acceptance check of a Faulted block. -/
theorem faultedBlockTakesNoStep : Obligations.FaultedBlockTakesNoStep := by
  intro s hs
  refine ⟨by simp [step, hs], fun i => ?_⟩
  obtain ⟨f, hf⟩ := exec_eq_accept i s
  rw [hf, accept_faulted hs]

/-- Settles O40: an accepted call is what its beginning makes of the state. -/
theorem everyAcceptedCallStarts : Obligations.EveryAcceptedCallStarts := by
  intro i s hs
  obtain ⟨f, hf⟩ := exec_eq_accept i s
  exact ⟨f s, by rw [hf, accept_of_accepts hs]⟩

/-- Settles O41: no call passes the acceptance check while another is suspended. -/
theorem callWhileBusyHasNoStep : Obligations.CallWhileBusyHasNoStep := by
  intro s op pt k hl hp i
  obtain ⟨f, hf⟩ := exec_eq_accept i s
  rw [hf, accept_busy hl hp]

/-! ## What a step of one operation keeps -/

/-- The fields that only some operations may change, or may change in some ways only. -/
def State.guarded (s : State) : Params × BitDepth × Rect × Line × Life × List Event :=
  (s.par, s.depth, s.addr, s.rst, s.life, s.trace)

theorem guarded_eq {s t : State} (h : t.guarded = s.guarded) :
    t.par = s.par ∧ t.depth = s.depth ∧ t.addr = s.addr ∧ t.rst = s.rst ∧ t.life = s.life ∧ t.trace = s.trace := by
  simpa [State.guarded] using h

/-- A property of states that the changes allowed to the operation `op` keep: only INIT drives RST (10_state.md R142)
and sets a lifecycle other than Indeterminate and Faulted (R132), only INIT and WRITE change the cache (R101, R102), and
to a rectangle inside the panel (20_memory.md R234), and every recorded event is one a conforming block makes. -/
structure ClosedFor (op : Instr) (P : State → Prop) : Prop where
  quiet : ∀ {s t}, P s → t.guarded = s.guarded → P t
  emit : ∀ s e, Event.Ok s.par e → (∀ lvl r, e = .pin .rst lvl r → op.isInit = true) → P s → P (s.emit e)
  rst : ∀ s v, op.isInit = true → P s → P (s.setRst v)
  depth : ∀ s d, op.isInit = true ∨ op.isWrite = true → P s → P (s.setDepth d)
  addr : ∀ s q, op.isInit = true ∨ op.isWrite = true → inPanel s.par q = true → P s → P (s.setAddr q)
  life : ∀ s l, op.isInit = true ∨ l = .indeterminate ∨ l = .faulted → P s → P (s.setLife l)

/-- Where an operation with the property may stop: at a resumption point of its own kind, unless a fatal fault stopped
it. -/
def StopsWith (P : State → Prop) (t : State) : Prop := P t ∧ (t.life ≠ .faulted → PhaseOk t)

/-- What follows a PinSet: `f` after Ok, the failure of the request after an error (60_exceptions.md R610). -/
def afterPin (f : State → State) : Option EnvError × State → State
  | (none, t) => f t
  | (some e, t) => t.fail (.pin e)

theorem flushThen_eq (op : Instr) (k : List Act) (s : State) :
    flushThen op k s = afterPin (·.suspend op .flush k) (pinSet .dc .low s) := by
  unfold flushThen
  rcases pinSet .dc .low s with ⟨_ | e, t⟩ <;> rfl

theorem dataThen_eq (op : Instr) (data : List Byte) (k : List Act) (s : State) :
    dataThen op data k s = afterPin (·.suspend op (.data data) k) (pinSet .dc .high s) := by
  unfold dataThen
  rw [memRead_whole]
  rcases pinSet .dc .high s with ⟨_ | e, t⟩ <;> rfl

theorem runActs_pin (op : Instr) (p : Pin) (lvl : Level) (k : List Act) (s : State) :
    runActs op (.pin p lvl :: k) s = afterPin (runActs op k) (pinSet p lvl s) := by
  rw [runActs]
  rcases pinSet p lvl s with ⟨_ | e, t⟩ <;> rfl

/-- What a PinSet leaves as it was. -/
theorem pinSet_frame (p : Pin) (lvl : Level) (s : State) :
    (pinSet p lvl s).2.par = s.par ∧ (pinSet p lvl s).2.buf = s.buf := by
  obtain ⟨ps, n, h | ⟨e, h⟩⟩ := pinSet_shape p lvl s <;> rw [h] <;> cases p <;> exact ⟨rfl, rfl⟩

theorem pinSet_dc_line {lvl : Level} {s t : State} (h : pinSet .dc lvl s = (none, t)) : t.dc = Level.line lvl := by
  obtain ⟨ps, n, hk | ⟨e, hk⟩⟩ := pinSet_shape .dc lvl s <;> rw [hk] at h <;> cases h
  rfl

@[simp] theorem resetCache_par (s : State) : s.resetCache.par = s.par := by
  unfold State.resetCache
  split <;> rfl

/-- The whole panel lies inside the panel (00_scope.md R7). -/
theorem inPanel_wholePanel {p : Params} (h : p.Wf) : inPanel p ⟨0, 0, p.panelW, p.panelH⟩ = true := by
  obtain ⟨⟨hw, -⟩, ⟨hh, -⟩, -⟩ := h
  simp only [inPanel, Rect.within, Bool.and_eq_true, decide_eq_true_eq]
  omega

theorem len_le_cap {p : Params} (h : p.Wf) (c : Command) : c.len ≤ p.cap := by
  obtain ⟨-, -, hc, -⟩ := h
  exact c.len_le.trans hc

/-- An empty buffer takes every command (41_command_encoder.md R405). -/
theorem tryAppend_of_empty {c : Command} {s t : State} {fits : Bool} (hw : s.par.Wf) (hb : s.buf = [])
    (h : tryAppend c s = .ok (fits, t)) : fits = true := by
  obtain ⟨b, hb', ⟨hf, -⟩ | ⟨-, hlt, -⟩⟩ := tryAppend_cases h
  · exact hf
  · have := len_le_cap hw c
    rw [hb, enc_length hb', List.length_nil] at hlt
    omega

theorem tryAppend_error {c : Command} {s : State} {f : Fatal} (h : tryAppend c s = .error f) :
    enc s.par c = .error f := by
  cases hc : enc s.par c with
  | error g => rw [tryAppend_fatal hc] at h; cases h; rfl
  | ok b =>
    by_cases hb : s.buf.length + b.length ≤ s.par.cap
    · rw [tryAppend_fits hc hb] at h; cases h
    · rw [tryAppend_full hc hb] at h; cases h

namespace ClosedFor

variable {op : Instr} {P : State → Prop} (hP : ClosedFor op P)
include hP

/-- Every event but a drive of RST may be recorded by any operation. -/
theorem record {s : State} {e : Event} (he : Event.Ok s.par e) (hr : ∀ lvl r, e ≠ .pin .rst lvl r) (h : P s) :
    P (s.emit e) :=
  hP.emit s e he (fun lvl r h => absurd h (hr lvl r)) h

theorem pinSet {s : State} {p : Pin} (lvl : Level) (hp : p = .rst → op.isInit = true) (h : P s) :
    P (pinSet p lvl s).2 := by
  have line : ∀ (u : State) v, P u → P (u.setLine p v) := by
    intro u v hu
    cases p with
    | rst => exact hP.rst u v (hp rfl) hu
    | dc => exact hP.quiet hu rfl
  obtain ⟨ps, n, hk | ⟨e, hk⟩⟩ := pinSet_shape p lvl s <;> rw [hk] <;>
    exact hP.emit _ _ trivial (fun _ _ h => hp (by cases h; rfl)) (line _ _ (hP.quiet h rfl))

/-! ### The ends of an operation -/

theorem ret {s : State} (v : Result) (h : P s) : StopsWith P (s.ret v) :=
  ⟨hP.quiet h rfl, fun _ => trivial⟩

theorem respond {s : State} (h : P s) : StopsWith P s.respond :=
  hP.ret _ (hP.record trivial (by simp) h)

theorem fail {s : State} (e : IoError) (h : P s) : StopsWith P (s.fail e) :=
  hP.ret _ (hP.life _ _ (.inr (.inl rfl)) (hP.record trivial (by simp) h))

theorem cancelled {s : State} (h : P s) : StopsWith P s.cancelled :=
  hP.ret _ (hP.life _ _ (.inr (.inl rfl)) (hP.record trivial (by simp) h))

theorem raise {s : State} {f : Fatal} (hf : Event.Ok s.par (.fatal f)) (h : P s) : StopsWith P (s.raise f) :=
  ⟨hP.quiet (hP.life _ _ (.inr (.inr rfl)) (hP.record hf (by simp) h)) rfl, fun hl => absurd rfl hl⟩

theorem suspend {s : State} (pt : AwaitPoint) (k : List Act) (h : P s) (hk : PhaseOk (s.suspend op pt k)) :
    StopsWith P (s.suspend op pt k) :=
  ⟨hP.quiet h rfl, fun _ => hk⟩

/-! ### Running pseudocode -/

theorem resetCache {s : State} (hi : op.isInit = true) (hw : s.par.Wf) (h : P s) : P s.resetCache := by
  have h' := hP.addr (s.setDepth .sixteen) ⟨0, 0, s.par.panelW, s.par.panelH⟩ (.inl hi) (inPanel_wholePanel hw)
    (hP.depth s .sixteen (.inl hi) h)
  unfold State.resetCache
  split
  · exact hP.quiet h' rfl
  · exact h'

theorem tryAppend {c : Command} {s t : State} {fits : Bool} (ht : tryAppend c s = .ok (fits, t)) (h : P s) :
    P t ∧ t.par = s.par := by
  obtain ⟨b, -, ⟨-, -, rfl⟩ | ⟨-, -, rfl⟩⟩ := tryAppend_cases ht
  · exact ⟨hP.quiet h rfl, rfl⟩
  · exact ⟨h, rfl⟩

theorem afterPin {s : State} {p : Pin} {lvl : Level} {f : State → State} (hp : p = .rst → op.isInit = true)
    (hf : ∀ t, Machine.pinSet p lvl s = (none, t) → t.par = s.par → t.buf = s.buf → P t → StopsWith P (f t)) (h : P s) :
    StopsWith P (afterPin f (Machine.pinSet p lvl s)) := by
  have hset := hP.pinSet lvl hp h
  obtain ⟨hpar, hbuf⟩ := pinSet_frame p lvl s
  rcases hk : Machine.pinSet p lvl s with ⟨_ | e, t⟩ <;> rw [hk] at hset hpar hbuf
  · exact hf t hk hpar hbuf hset
  · exact hP.fail _ hset

theorem flushThen {s : State} {k : List Act} (hb : s.buf ≠ [])
    (hk : ActsAllowed s.par op k ∨ ∃ c k', k = .retry c :: k' ∧ ActsAllowed s.par op k') (h : P s) :
    StopsWith P (flushThen op k s) := by
  rw [flushThen_eq]
  refine hP.afterPin (by simp) (fun t ht hpar hbuf hPt => ?_) h
  exact hP.suspend _ _ hPt ⟨hbuf.symm ▸ hb, pinSet_dc_line ht, hpar.symm ▸ hk⟩

theorem dataThen {s : State} {k : List Act} (hw : op.isWrite = true) (hk : ActsAllowed s.par op k) (h : P s)
    (data : List Byte) : StopsWith P (dataThen op data k s) := by
  rw [dataThen_eq]
  refine hP.afterPin (by simp) (fun t ht hpar _ hPt => ?_) h
  exact hP.suspend _ _ hPt ⟨hw, pinSet_dc_line ht, hpar.symm ▸ hk⟩

/-- Running allowed pseudocode keeps the property and stops at a resumption point of the operation. -/
theorem runActs {k : List Act} {s : State} (hw : s.par.Wf) (hk : ActsAllowed s.par op k) (h : P s) :
    StopsWith P (runActs op k s) := by
  induction k generalizing s with
  | nil => exact hP.ret _ h
  | cons a k ih =>
    obtain ⟨ha, hk'⟩ := actsAllowed_cons.1 hk
    have next : ∀ t, t.par = s.par → P t → StopsWith P (Machine.runActs op k t) := fun t ht hPt =>
      ih (ht.symm ▸ hw) (ht.symm ▸ hk') hPt
    cases a with
    | setLife l =>
      refine next _ rfl (hP.life _ _ ?_ h)
      exact ha.imp (fun hi => hi.1) (fun hs => .inl hs.2)
    | pin p lvl =>
      rw [runActs_pin]
      exact hP.afterPin (fun _ => ha.1) (fun t _ hpar _ hPt => next t hpar hPt) h
    | delay ms => exact hP.suspend _ _ h ⟨ha, hk'⟩
    | resetCache => exact next _ (resetCache_par s) (hP.resetCache ha hw h)
    | append c =>
      simp only [Machine.runActs]
      split
      · exact hP.raise (enc_error_ok (tryAppend_error ‹_›)) h
      · obtain ⟨hPt, hpar⟩ := hP.tryAppend ‹_› h
        exact next _ hpar hPt
      · rename_i t ht
        obtain ⟨b, -, ⟨hf, -⟩ | ⟨-, -, rfl⟩⟩ := tryAppend_cases ht
        · cases hf
        · have hb : t.buf ≠ [] := fun hb => by simpa using tryAppend_of_empty hw hb ht
          rw [if_neg hb]
          exact hP.flushThen hb (.inr ⟨c, k, rfl, hk'⟩) h
    | retry c => exact ha.elim
    | flush =>
      simp only [Machine.runActs]
      split
      · exact next s rfl h
      · exact hP.flushThen ‹_› (.inl hk') h
    | setDepth d => exact next _ rfl (hP.depth _ _ (.inr ha) h)
    | setAddr q => exact next _ rfl (hP.addr _ _ (.inr ha.1) ha.2 h)
    | dataPhase data => exact hP.dataThen ha hk' h data
    | respond => exact hP.respond h
    | ret => exact hP.ret _ h

/-- The second TRY_APPEND of APPEND_BATCHED meets an empty buffer, so it never ends in FATAL_CMD_TOO_LARGE
(41_command_encoder.md R404, R405). -/
theorem runActs_retry {c : Command} {k : List Act} {s : State} (hw : s.par.Wf) (hb : s.buf = [])
    (hk : ActsAllowed s.par op k) (h : P s) : StopsWith P (Machine.runActs op (.retry c :: k) s) := by
  simp only [Machine.runActs]
  split
  · exact hP.raise (enc_error_ok (tryAppend_error ‹_›)) h
  · obtain ⟨hPt, hpar⟩ := hP.tryAppend ‹_› h
    exact hP.runActs (hpar.symm ▸ hw) (hpar.symm ▸ hk) hPt
  · rename_i ht
    cases tryAppend_of_empty hw hb ht

/-! ### Steps -/

theorem answerBus {bytes : List Byte} {done : State → State} {s t : State} (ht : answerBus bytes done s = .next t)
    (he : ∀ r, Event.Ok s.par (.bus s.dc bytes r))
    (hd : ∀ u, u.par = s.par → P u → StopsWith P (done u)) (h : P s) : StopsWith P t := by
  have sent : ∀ as r bs, P (((s.setBuses as).emit (.bus s.dc bytes r)).deliver bs) := fun as r bs =>
    hP.quiet (hP.record (s := s.setBuses as) (he r) (by simp) (hP.quiet h rfl)) rfl
  obtain ⟨as, ⟨-, rfl⟩ | ⟨e, n, -, rfl⟩ | ⟨n, -, rfl⟩⟩ := answerBus_next ht
  · exact hd _ rfl (sent as .ok bytes)
  · exact hP.fail _ (sent as (.err e) _)
  · exact hP.cancelled (sent as .cancelled _)

theorem resume {pt : AwaitPoint} {k : List Act} {s t : State} (hs : Inv s) (hl : s.life ≠ .faulted)
    (hp : s.phase = .busy op pt k) (ht : resume op pt k s = .next t) (h : P s) : StopsWith P t := by
  have hph := hs.phaseOk hl
  unfold PhaseOk at hph
  rw [hp] at hph
  cases pt with
  | delay ms =>
    obtain ⟨-, hk⟩ := hph
    have hd : ∀ ds, P (s.setDelays ds) := fun ds => hP.quiet h rfl
    obtain ⟨ds, ⟨-, rfl⟩ | ⟨-, rfl⟩⟩ := answerDelay_next ht
    · exact hP.runActs hs.parWf hk (hP.record trivial (by simp) (hd ds))
    · exact hP.cancelled (hd ds)
  | data bytes =>
    obtain ⟨-, hdc, hk⟩ := hph
    refine hP.answerBus ht (fun r => hdc ▸ trivial) (fun u hu hPu => ?_) h
    exact hP.runActs (hu.symm ▸ hs.parWf) (hu.symm ▸ hk) hPu
  | flush =>
    obtain ⟨hb, hdc, hk⟩ := hph
    have he : ∀ r, Event.Ok s.par (.bus s.dc s.buf r) := fun r => hdc ▸ ⟨hb, hs.bufFits, hs.bufWhole⟩
    refine hP.answerBus (done := fun u => Machine.runActs op k (u.setBuf [])) ht he (fun u hu hPu => ?_) h
    have hw : u.par.Wf := hu.symm ▸ hs.parWf
    have hPu' : P (u.setBuf []) := hP.quiet hPu rfl
    obtain hk | ⟨c, k', rfl, hk⟩ := hk
    · exact hP.runActs hw (hu.symm ▸ hk) hPu'
    · exact hP.runActs_retry hw rfl (hu.symm ▸ hk) hPu'

theorem exec {s t : State} (hw : s.par.Wf) (ht : exec op s = .next t) (h : P s) : StopsWith P t := by
  obtain ⟨e, he, rfl⟩ := exec_next ht
  cases e with
  | ret b v => exact hP.ret v (hP.quiet h rfl)
  | raise f => exact hP.raise he h
  | run k => exact hP.runActs hw he h

end ClosedFor

/-- A step of a state that meets the invariant is a step of the running call, keeps every property that the changes
allowed to this call keep, and stops at a resumption point of it. -/
theorem step_stops {s t : State} (hs : Inv s) (ht : step s = .next t) :
    ∃ i, s.running = some i ∧ ∀ P, ClosedFor i P → P s → StopsWith P t := by
  obtain ⟨hl, ⟨op, pt, k, hp, hr⟩ | ⟨item, items, i, more, hp, hport, hf, -, he⟩⟩ := step_next ht
  · exact ⟨op, by simp [State.running, hp], fun P hP h => hP.resume hs hl hp hr h⟩
  · refine ⟨i, by simp [State.running, hp, hport, hf], fun P hP h => ?_⟩
    exact hP.exec (s := s.setPort (more ++ items)) hs.parWf he (hP.quiet h rfl)

/-! ## The invariant -/

theorem bufWhole_closed : Closed fun s => WholeCommands s.par s.buf where
  life _ _ h := h
  phase _ _ h := h
  port _ _ h := h
  result _ _ h := h
  emit _ _ h := h
  deliver _ _ h := h
  pins _ _ h := h
  pinDraw _ _ h := h
  buses _ _ h := h
  delays _ _ h := h
  dc _ _ h := h
  rst _ _ h := h
  depth _ _ h := h
  addr _ _ h := h
  bufNil s _ := wholeCommands_nil s.par
  bufAppend _ _ _ hb _ h := h.append hb

/-- 10_state.md R111: no primitive change touches the configuration or the parameters. -/
theorem config_closed (s : State) : Closed fun t => t.cfg = s.cfg ∧ t.par = s.par := by
  constructor <;> intros <;> assumption

/-- Every operation caches only rectangles inside the panel and records only events of a conforming block. -/
theorem addr_trace_closedFor (op : Instr) :
    ClosedFor op fun s => inPanel s.par s.addr = true ∧ ∀ e ∈ s.trace, Event.Ok s.par e where
  quiet h hq := by
    obtain ⟨hpar, -, haddr, -, -, htrace⟩ := guarded_eq hq
    rwa [hpar, haddr, htrace]
  emit s e he _ h := ⟨h.1, List.forall_mem_append.2 ⟨h.2, List.forall_mem_singleton.2 he⟩⟩
  rst _ _ _ h := h
  depth _ _ _ h := h
  addr _ _ _ hq h := ⟨hq, h.2⟩
  life _ _ _ h := h

/-- Settles O44: the closed properties of the step are the buffer's two, the rectangle's and the trace's, and every step
stops at a resumption point. -/
theorem stepKeepsTheInvariant : Obligations.StepKeepsTheInvariant := by
  intro s t hs ht
  obtain ⟨i, -, hi⟩ := step_stops hs ht
  obtain ⟨⟨haddr, htrace⟩, hphase⟩ := hi _ (addr_trace_closedFor i) ⟨hs.addrInPanel, hs.traceOk⟩
  have hpar : t.par = s.par := ((config_closed s).step ht ⟨rfl, rfl⟩).2
  exact {
    parWf := hpar ▸ hs.parWf
    bufFits := bufFits_closed.step ht hs.bufFits
    bufWhole := bufWhole_closed.step ht hs.bufWhole
    addrInPanel := haddr
    phaseOk := hphase
    traceOk := htrace }

/-- Settles O47: no primitive change touches the two. -/
theorem configurationNeverChanges : Obligations.ConfigurationNeverChanges :=
  ⟨fun _ _ _ _ => rfl, fun s _ ht => (config_closed s).step ht ⟨rfl, rfl⟩⟩

/-! ## What only some operations change -/

/-- 10_state.md R141, 20_memory.md R240: every primitive change leaves what was recorded and delivered in place. -/
theorem grows_closed (s : State) :
    Closed fun t => (∃ es, t.trace = s.trace ++ es) ∧ ∃ ws, t.wire = s.wire ++ ws where
  life _ _ h := h
  phase _ _ h := h
  port _ _ h := h
  result _ _ h := h
  emit _ e h := by
    obtain ⟨⟨es, hes⟩, hws⟩ := h
    exact ⟨⟨es ++ [e], by simp [hes]⟩, hws⟩
  deliver t bs h := by
    obtain ⟨hes, ws, hws⟩ := h
    exact ⟨hes, ws ++ bs.map (WireByte.mk t.dc), by simp [hws]⟩
  pins _ _ h := h
  pinDraw _ _ h := h
  buses _ _ h := h
  delays _ _ h := h
  dc _ _ h := h
  rst _ _ h := h
  depth _ _ h := h
  addr _ _ h := h
  bufNil _ h := h
  bufAppend _ _ _ _ _ h := h

/-- Settles O48: a step makes primitive changes only, and each of them adds at the end. -/
theorem traceAndWireOnlyGrow : Obligations.TraceAndWireOnlyGrow := fun s _ ht =>
  (grows_closed s).step ht ⟨⟨[], by simp⟩, [], by simp⟩

theorem eq_init_of_isInit {i : Instr} (h : i.isInit = true) : i = .init := by
  cases i
  case init => rfl
  all_goals cases h

theorem eq_write_of_isWrite {i : Instr} (h : i.isWrite = true) : ∃ data depth area, i = .write data depth area := by
  cases i
  case write data depth area => exact ⟨data, depth, area, rfl⟩
  all_goals cases h

/-- An operation other than INIT and WRITE leaves the cache alone. -/
theorem cache_closedFor {op : Instr} (hop : ¬(op.isInit = true ∨ op.isWrite = true)) (s : State) :
    ClosedFor op fun t => t.depth = s.depth ∧ t.addr = s.addr where
  quiet h hq := by
    obtain ⟨-, hdepth, haddr, -, -, -⟩ := guarded_eq hq
    rwa [hdepth, haddr]
  emit _ _ _ _ h := h
  rst _ _ _ h := h
  depth _ _ hi _ := absurd hi hop
  addr _ _ hi _ _ := absurd hi hop
  life _ _ _ h := h

/-- Settles O49: the cache is closed under what any other operation may do. -/
theorem onlyInitAndWriteChangeTheCache : Obligations.OnlyInitAndWriteChangeTheCache := by
  intro s t hs ht hne
  obtain ⟨i, hrun, hi⟩ := step_stops hs ht
  by_cases hop : i.isInit = true ∨ i.isWrite = true
  · exact ⟨i, hrun, hop.imp eq_init_of_isInit eq_write_of_isWrite⟩
  · obtain ⟨⟨hdepth, haddr⟩, -⟩ := hi _ (cache_closedFor hop s) ⟨rfl, rfl⟩
    exact absurd hne (by simp [hdepth, haddr])

/-- No drive of RST since `s`: the line is as it was, and no event recorded after those of `s` drives it. -/
def NoResetSince (s t : State) : Prop :=
  t.rst = s.rst ∧ ∃ es, t.trace = s.trace ++ es ∧ ∀ lvl r, Event.pin .rst lvl r ∉ es

/-- An operation other than INIT does not drive RST. -/
theorem noResetSince_closedFor {op : Instr} (hop : op.isInit ≠ true) (s : State) : ClosedFor op (NoResetSince s) where
  quiet h hq := by
    obtain ⟨-, -, -, hrst, -, htrace⟩ := guarded_eq hq
    rwa [NoResetSince, hrst, htrace]
  emit t e _ he h := by
    obtain ⟨hrst, es, htrace, hes⟩ := h
    refine ⟨hrst, es ++ [e], by simp [htrace], fun lvl r hmem => ?_⟩
    obtain hmem | hmem := List.mem_append.1 hmem
    · exact hes lvl r hmem
    · exact hop (he lvl r (List.mem_singleton.1 hmem).symm)
  rst _ _ hi _ := absurd hi hop
  depth _ _ _ h := h
  addr _ _ _ _ h := h
  life _ _ _ h := h

/-- Settles O50: having driven RST nowhere is closed under what any other operation may do. -/
theorem onlyInitDrivesReset : Obligations.OnlyInitDrivesReset := by
  intro s t hs ht hdrive
  obtain ⟨i, hrun, hi⟩ := step_stops hs ht
  by_cases hop : i.isInit = true
  · exact eq_init_of_isInit hop ▸ hrun
  · obtain ⟨⟨hrst, es, htrace, hes⟩, -⟩ :=
      hi _ (noResetSince_closedFor hop s) ⟨rfl, [], by simp, by simp⟩
    obtain hne | ⟨es', lvl, r, htrace', hmem⟩ := hdrive
    · exact absurd hrst hne
    · exact absurd (List.append_cancel_left (htrace.symm.trans htrace') ▸ hmem) (hes lvl r)

/-! ## The request port -/

/-- The step of an idle block: the call at the head of the port, with what stays of the port. -/
theorem step_idle {s : State} {item : PortItem} {items more : List PortItem} {i : Instr} (hs : Accepts s)
    (hp : s.port = item :: items) (hf : fetch s.par item = .ok (i, more)) (hw : wellFormed s.par i = true) :
    step s = exec i (s.setPort (more ++ items)) := by
  simp [step, hs.1, hs.2, hp, hf, hw, State.setPort]

theorem leftover_append (k : List Byte) (items : List PortItem) :
    leftover k ++ items = if k = [] then items else .word k :: items := by
  cases k <;> simp [leftover]

/-- Settles O42: the word is fetched as its first command and the bytes left over. -/
theorem stepRunsTheDecodedInstruction : Obligations.StepRunsTheDecodedInstruction := by
  intro s bs k items i hs hp hd hw
  have hf : fetch s.par (.word bs) = .ok (i, leftover k) := by simp [fetch, hd]
  rw [step_idle hs hp hf hw, leftover_append]
  rfl

/-- Settles O43: the call is fetched as it stands. -/
theorem stepRunsThePendingCall : Obligations.StepRunsThePendingCall := by
  intro s items i hs hp hw
  exact step_idle hs hp rfl hw

/-! ## Construction -/

/-- Settles O46: by the definition of the constructed state. -/
theorem constructionValues : Obligations.ConstructionValues := by
  intro p cfg d a
  exact ⟨rfl, rfl, rfl, rfl, rfl, rfl, rfl, rfl, rfl⟩

theorem construct_inv {p : Params} {a : Rect} (hp : p.Wf) (ha : inPanel p a = true) (cfg : OrientationConfig)
    (d : BitDepth) : Inv (State.construct p cfg d a) where
  parWf := hp
  bufFits := Nat.zero_le _
  bufWhole := wholeCommands_nil p
  addrInPanel := ha
  phaseOk _ := trivial
  traceOk := List.forall_mem_nil _

/-- Settles O45: a constructed state is idle, with nothing buffered or recorded and not Ready. -/
theorem constructionMeetsTheInvariant : Obligations.ConstructionMeetsTheInvariant := by
  refine ⟨fun p cfg d a hp ha => construct_inv hp ha cfg d, construct_inv (by decide) (by decide) _ _, ?_⟩
  intro p cfg d a
  have hf : (State.construct p cfg d a).Final := ⟨rfl, by simp [State.construct]⟩
  exact (coherent_of_final hf).2 fun hr => by cases hr

/-! ## The lifecycle is not read -/

/-- A change of state that reads nothing of the lifecycle: it makes the same of a state with another one. -/
def LifeBlind (f : State → State) : Prop := ∀ s l, ∃ l', f (s.setLife l) = (f s).setLife l'

theorem pinSet_setLife (p : Pin) (lvl : Level) (s : State) (l : Life) :
    pinSet p lvl (s.setLife l) = ((pinSet p lvl s).1, (pinSet p lvl s).2.setLife l) := by
  have hn : (s.setLife l).nextPin = (s.nextPin.1, s.nextPin.2.setLife l) := by
    unfold State.nextPin
    cases hp : s.pins <;> simp [hp] <;> rfl
  unfold pinSet
  rw [hn]
  rcases s.nextPin with ⟨a | e, t⟩ <;> cases p <;> rfl

theorem tryAppend_setLife (c : Command) (s : State) (l : Life) :
    tryAppend c (s.setLife l) = (tryAppend c s).map fun r => (r.1, r.2.setLife l) := by
  unfold tryAppend
  cases h : enc s.par c with
  | error f => simp [h]; rfl
  | ok b => by_cases hb : s.buf.length + b.length ≤ s.par.cap <;> simp [h, hb] <;> rfl

theorem resetCache_setLife (s : State) (l : Life) : s.resetCache.setLife l = (s.setLife l).resetCache := by
  cases h : s.par.initClearsBuffer <;> simp [State.resetCache, h] <;> rfl

theorem afterPin_lifeBlind {f : State → State} (hf : LifeBlind f) (p : Pin) (lvl : Level) :
    LifeBlind fun s => afterPin f (pinSet p lvl s) := by
  intro s l
  simp only [pinSet_setLife]
  rcases pinSet p lvl s with ⟨_ | e, t⟩
  · exact hf t l
  · exact ⟨.indeterminate, rfl⟩

theorem suspend_lifeBlind (op : Instr) (pt : AwaitPoint) (k : List Act) : LifeBlind (·.suspend op pt k) :=
  fun _ l => ⟨l, rfl⟩

theorem flushThen_lifeBlind (op : Instr) (k : List Act) : LifeBlind (flushThen op k) :=
  funext (flushThen_eq op k) ▸ afterPin_lifeBlind (suspend_lifeBlind op .flush k) .dc .low

theorem dataThen_lifeBlind (op : Instr) (data : List Byte) (k : List Act) : LifeBlind (dataThen op data k) :=
  funext (dataThen_eq op data k) ▸ afterPin_lifeBlind (suspend_lifeBlind op (.data data) k) .dc .high

theorem runActs_lifeBlind (op : Instr) (k : List Act) : LifeBlind (runActs op k) := by
  induction k with
  | nil => exact fun s l => ⟨l, rfl⟩
  | cons a k ih =>
    intro s l
    cases a with
    | setLife l₁ => exact ⟨_, (State.setLife_self _).symm⟩
    | pin p lvl =>
      simp only [runActs_pin]
      exact afterPin_lifeBlind ih p lvl s l
    | resetCache =>
      simp only [runActs, ← resetCache_setLife]
      exact ih s.resetCache l
    | append c =>
      simp only [runActs, tryAppend_setLife]
      rcases tryAppend c s with f | ⟨_ | _, t⟩
      · exact ⟨_, rfl⟩
      · by_cases hb : t.buf = []
        · exact ⟨.faulted, by simp [Except.map, hb]; rfl⟩
        · simpa [Except.map, hb] using flushThen_lifeBlind op (.retry c :: k) t l
      · exact ih t l
    | retry c =>
      simp only [runActs, tryAppend_setLife]
      rcases tryAppend c s with f | ⟨_ | _, t⟩
      · exact ⟨_, rfl⟩
      · exact ⟨_, rfl⟩
      · exact ih t l
    | flush =>
      by_cases hb : s.buf = []
      · simpa [runActs, hb] using ih s l
      · simpa [runActs, hb] using flushThen_lifeBlind op k s l
    | setDepth d => exact ih (s.setDepth d) l
    | setAddr q => exact ih (s.setAddr q) l
    | dataPhase data => exact dataThen_lifeBlind op data k s l
    | delay ms => exact ⟨l, rfl⟩
    | respond => exact ⟨l, rfl⟩
    | ret => exact ⟨l, rfl⟩

theorem begin_lifeBlind (i : Instr) (e : CallStart) : LifeBlind (e.begin i) := by
  cases e with
  | ret buf v => exact fun s l => ⟨l, rfl⟩
  | raise f => exact fun s l => ⟨_, rfl⟩
  | run k => exact runActs_lifeBlind i k

section
variable {s t : State} (l : Life)

theorem answerBus_setLife {bytes : List Byte} {done : State → State} (hd : LifeBlind done)
    (h : answerBus bytes done s = .next t) : ∃ l', answerBus bytes done (s.setLife l) = .next (t.setLife l') := by
  obtain ⟨as, ⟨hb, rfl⟩ | ⟨e, n, hb, rfl⟩ | ⟨n, hb, rfl⟩⟩ := answerBus_next h
  · obtain ⟨l', hl'⟩ := hd ((s.setBuses as).busDone bytes) l
    exact ⟨l', by simp [answerBus, hb, ← hl']; rfl⟩
  · exact ⟨.indeterminate, by simp [answerBus, hb]; rfl⟩
  · exact ⟨.indeterminate, by simp [answerBus, hb]; rfl⟩

theorem answerDelay_setLife {ms : Nat} {done : State → State} (hd : LifeBlind done)
    (h : answerDelay ms done s = .next t) : ∃ l', answerDelay ms done (s.setLife l) = .next (t.setLife l') := by
  obtain ⟨ds, ⟨hb, rfl⟩ | ⟨hb, rfl⟩⟩ := answerDelay_next h
  · obtain ⟨l', hl'⟩ := hd ((s.setDelays ds).emit (.delay ms)) l
    exact ⟨l', by simp [answerDelay, hb, ← hl']; rfl⟩
  · exact ⟨.indeterminate, by simp [answerDelay, hb]; rfl⟩

theorem resume_setLife {op : Instr} {pt : AwaitPoint} {k : List Act} (h : resume op pt k s = .next t) :
    ∃ l', resume op pt k (s.setLife l) = .next (t.setLife l') := by
  cases pt with
  | delay ms => exact answerDelay_setLife l (runActs_lifeBlind op k) h
  | flush =>
    have hd : LifeBlind fun u => runActs op k (u.setBuf []) := fun u l => runActs_lifeBlind op k (u.setBuf []) l
    exact answerBus_setLife l hd h
  | data bytes => exact answerBus_setLife l (runActs_lifeBlind op k) h

theorem exec_setLife {i : Instr} (hl : l ≠ .faulted) (h : exec i s = .next t) :
    ∃ l', exec i (s.setLife l) = .next (t.setLife l') := by
  obtain ⟨e, -, he⟩ := exec_begins s i
  obtain ⟨⟨-, hp⟩, rfl⟩ := accept_next.1 (he s.life ▸ h)
  obtain ⟨l', hl'⟩ := begin_lifeBlind i e s l
  have hs : Accepts (s.setLife l) := ⟨hl, hp⟩
  exact ⟨l', by rw [he l, accept_of_accepts hs, hl', State.setLife_self]⟩

end

/-- Settles O52: resuming and calling are blind to the lifecycle. -/
theorem lifecycleIsNeverRead : Obligations.LifecycleIsNeverRead := by
  intro s t l hl ht
  obtain ⟨-, ⟨op, pt, k, hp, hr⟩ | ⟨item, items, i, more, hp, hport, hf, hw, he⟩⟩ := step_next ht
  · rw [step_busy (s := s.setLife l) hl hp]
    exact resume_setLife l hr
  · rw [step_idle (s := s.setLife l) ⟨hl, hp⟩ hport hf hw]
    exact exec_setLife l hl he

end Sys2Proof.Machine

namespace Sys2Proof

/-! ## The flags byte -/

/-- Every pair of a configuration and a depth is in the list of FLAGS' arguments. -/
theorem mem_flagArgs (c : OrientationConfig) (d : BitDepth) : (c, d) ∈ flagArgs := by
  obtain ⟨o, cd, rd, i⟩ := c
  cases o <;> cases cd <;> cases rd <;> cases i <;> cases d <;> decide

/-- Settles O14: the table of bits holds of every pair in the list. -/
theorem adoptedFlagBits : Obligations.AdoptedFlagBits := by
  have table : ∀ q ∈ flagArgs, let f := flags Params.adopted q.1 q.2
      f.getLsbD 0 = decide (q.1.order = .columnMajor) ∧ f.getLsbD 1 = decide (q.1.coldir = .rightToLeft) ∧
      f.getLsbD 2 = false ∧ f.getLsbD 3 = false ∧ f.getLsbD 4 = decide (q.1.rowdir = .reversed) ∧
      f.getLsbD 5 = decide (q.1.interleave = .interleaved) ∧ f.getLsbD 6 = decide (q.2 = .sixteen) ∧
      f.getLsbD 7 = false := by decide
  exact fun c d => table (c, d) (mem_flagArgs c d)

/-! ### FLAGS is injective: the codes stand in masks that share no bit -/

/-- The byte has no bit outside the mask. -/
def InMask (m x : Byte) : Prop := x &&& m = x

theorem inMask_or_left (x y : Byte) : InMask (x ||| y) x := by
  ext i hi
  cases hx : x[i] <;> simp [hx]

theorem inMask_or_right (x y : Byte) : InMask (x ||| y) y := by
  rw [BitVec.or_comm]
  exact inMask_or_left y x

theorem InMask.or {m m' x y : Byte} (hx : InMask m x) (hy : InMask m' y) : InMask (m ||| m') (x ||| y) := by
  ext i hi
  have hxi := congrArg (·[i]) hx
  have hyi := congrArg (·[i]) hy
  simp only [BitVec.getElem_and, BitVec.getElem_or] at hxi hyi ⊢
  cases hxb : x[i] <;> cases hyb : y[i] <;> simp_all

theorem InMask.and_disjoint {m m' x : Byte} (hx : InMask m x) (hm : m &&& m' = 0) : x &&& m' = 0 := by
  rw [← hx, BitVec.and_assoc, hm]
  exact BitVec.and_zero

theorem or_and_eq_zero {m m' k : Byte} (h : m &&& k = 0) (h' : m' &&& k = 0) : (m ||| m') &&& k = 0 := by
  rw [BitVec.and_comm] at h h' ⊢
  rw [BitVec.and_or_distrib_left, h, h']
  rfl

/-- What stands in a mask is read back with it from the OR with what stands in a disjoint mask. -/
theorem InMask.or_and {m m' x y : Byte} (hx : InMask m x) (hy : InMask m' y) (hm : m &&& m' = 0) :
    (x ||| y) &&& m' = y := by
  rw [BitVec.and_comm, BitVec.and_or_distrib_left, BitVec.and_comm m' x, BitVec.and_comm m' y,
    hx.and_disjoint hm, hy]
  exact BitVec.zero_or

theorem InMask.or_injective {m m' x x' y y' : Byte} (hx : InMask m x) (hx' : InMask m x') (hy : InMask m' y)
    (hy' : InMask m' y') (hm : m &&& m' = 0) (h : x ||| y = x' ||| y') : x = x' ∧ y = y' := by
  have hm' : m' &&& m = 0 := BitVec.and_comm m m' ▸ hm
  constructor
  · rw [← hy.or_and hx hm', BitVec.or_comm y x, h, BitVec.or_comm x' y', hy'.or_and hx' hm']
  · rw [← hx.or_and hy hm, h, hx'.or_and hy' hm]

section
variable (p : Params)

/-! The code of each field stands in the field's mask, and tells the field's value. -/

theorem codeOrder_inMask (v : PixelOrder) : InMask (p.codeRowMajor ||| p.codeColumnMajor) (p.codeOrder v) := by
  cases v
  · exact inMask_or_left _ _
  · exact inMask_or_right _ _

theorem codeColdir_inMask (v : ColumnDirection) :
    InMask (p.codeLeftToRight ||| p.codeRightToLeft) (p.codeColdir v) := by
  cases v
  · exact inMask_or_left _ _
  · exact inMask_or_right _ _

theorem codeRowdir_inMask (v : RowDirection) : InMask (p.codeNormal ||| p.codeReversed) (p.codeRowdir v) := by
  cases v
  · exact inMask_or_left _ _
  · exact inMask_or_right _ _

theorem codeInterleave_inMask (v : RowInterleave) :
    InMask (p.codeNotInterleaved ||| p.codeInterleaved) (p.codeInterleave v) := by
  cases v
  · exact inMask_or_right _ _
  · exact inMask_or_left _ _

theorem codeDepth_inMask (v : BitDepth) : InMask (p.codeEight ||| p.codeSixteen) (p.codeDepth v) := by
  cases v
  · exact inMask_or_left _ _
  · exact inMask_or_right _ _

variable {p}

theorem codeOrder_injective (h : p.codeRowMajor ≠ p.codeColumnMajor) : Function.Injective p.codeOrder := by
  rintro ⟨⟩ ⟨⟩ hv <;> simp_all [Params.codeOrder]

theorem codeColdir_injective (h : p.codeLeftToRight ≠ p.codeRightToLeft) : Function.Injective p.codeColdir := by
  rintro ⟨⟩ ⟨⟩ hv <;> simp_all [Params.codeColdir]

theorem codeRowdir_injective (h : p.codeNormal ≠ p.codeReversed) : Function.Injective p.codeRowdir := by
  rintro ⟨⟩ ⟨⟩ hv <;> simp_all [Params.codeRowdir]

theorem codeInterleave_injective (h : p.codeNotInterleaved ≠ p.codeInterleaved) :
    Function.Injective p.codeInterleave := by
  rintro ⟨⟩ ⟨⟩ hv <;> simp_all [Params.codeInterleave]

theorem codeDepth_injective (h : p.codeEight ≠ p.codeSixteen) : Function.Injective p.codeDepth := by
  rintro ⟨⟩ ⟨⟩ hv <;> simp_all [Params.codeDepth]

end

/-- Settles O13: the five codes are taken off the flags byte one after the other, the last first. -/
theorem flagsIsInjective : Obligations.FlagsIsInjective := by
  intro p c c' d d' hp h
  obtain ⟨neO, neC, neR, neI, neD, hOC, hOR, hOI, hOD, hCR, hCI, hCD, hRI, hRD, hID⟩ := hp
  have m₂ (c : OrientationConfig) := (codeOrder_inMask p c.order).or (codeColdir_inMask p c.coldir)
  have m₃ (c : OrientationConfig) := (m₂ c).or (codeRowdir_inMask p c.rowdir)
  have m₄ (c : OrientationConfig) := (m₃ c).or (codeInterleave_inMask p c.interleave)
  obtain ⟨h, hd⟩ := (m₄ c).or_injective (m₄ c') (codeDepth_inMask p d) (codeDepth_inMask p d')
    (or_and_eq_zero (or_and_eq_zero (or_and_eq_zero hOD hCD) hRD) hID) h
  obtain ⟨h, hi⟩ := (m₃ c).or_injective (m₃ c') (codeInterleave_inMask p _) (codeInterleave_inMask p _)
    (or_and_eq_zero (or_and_eq_zero hOI hCI) hRI) h
  obtain ⟨h, hr⟩ := (m₂ c).or_injective (m₂ c') (codeRowdir_inMask p _) (codeRowdir_inMask p _)
    (or_and_eq_zero hOR hCR) h
  obtain ⟨ho, hc⟩ := (codeOrder_inMask p _).or_injective (codeOrder_inMask p _) (codeColdir_inMask p _)
    (codeColdir_inMask p _) hOC h
  obtain ⟨o, cd, r, i⟩ := c
  obtain ⟨o', cd', r', i'⟩ := c'
  cases codeOrder_injective neO ho
  cases codeColdir_injective neC hc
  cases codeRowdir_injective neR hr
  cases codeInterleave_injective neI hi
  exact ⟨rfl, codeDepth_injective neD hd⟩

end Sys2Proof
end

section
/-! PROOFS of the family 20_memory.md: WRITE does not look at its data. -/

namespace Sys2Proof

/-! ## Another data slice in the place of a WRITE's -/

/-- The instruction with another data slice, where it is a WRITE. -/
def Instr.withData (data : List Byte) : Instr → Instr
  | .write _ depth area => .write data depth area
  | i => i

namespace Machine

def Act.withData (data : List Byte) : Act → Act
  | .dataPhase _ => .dataPhase data
  | a => a

def AwaitPoint.withData (data : List Byte) : AwaitPoint → AwaitPoint
  | .data _ => .data data
  | pt => pt

def Phase.withData (data : List Byte) : Phase → Phase
  | .idle => .idle
  | .busy op pt k => .busy (op.withData data) (pt.withData data) (k.map (Act.withData data))

/-- The state with another data slice in what is suspended; before the data transfer, nothing else holds the data. -/
def State.withData (data : List Byte) (s : State) : State := s.setPhase (s.phase.withData data)

theorem State.withData_phase (data : List Byte) (s : State) : (s.withData data).phase = s.phase.withData data := rfl

theorem State.withData_of_idle {s : State} (h : s.phase = .idle) (data : List Byte) : s.withData data = s := by
  cases s; cases h; rfl

@[simp] theorem Phase.withData_eq_idle {data : List Byte} {p : Phase} : p.withData data = .idle ↔ p = .idle := by
  cases p <;> simp [Phase.withData]

theorem pinSet_dc_withData (lvl : Level) (s : State) (data : List Byte) :
    pinSet .dc lvl (s.withData data) = ((pinSet .dc lvl s).1, (pinSet .dc lvl s).2.withData data) := by
  have hn : (s.withData data).nextPin = (s.nextPin.1, s.nextPin.2.withData data) := by
    unfold State.nextPin
    cases hp : s.pins <;> simp [State.withData, hp] <;> rfl
  unfold pinSet
  rw [hn]
  rcases s.nextPin with ⟨a | e, t⟩ <;> rfl

/-- TRY_APPEND answers alike whatever the data (41_command_encoder.md R402). -/
theorem tryAppend_withData (c : Command) (s : State) :
    (∃ f, ∀ data, tryAppend c (s.withData data) = .error f) ∨
    (∃ b, ∀ data, tryAppend c (s.withData data) = .ok (true, (s.setBuf (s.buf ++ b)).withData data)) ∨
    (∀ data, tryAppend c (s.withData data) = .ok (false, s.withData data)) := by
  cases hb : enc s.par c with
  | error f => exact .inl ⟨f, fun data => tryAppend_fatal (s := s.withData data) hb⟩
  | ok b =>
    by_cases hfit : s.buf.length + b.length ≤ s.par.cap
    · exact .inr (.inl ⟨b, fun data => tryAppend_fits (s := s.withData data) hb hfit⟩)
    · exact .inr (.inr fun data => tryAppend_full (s := s.withData data) hb hfit)

theorem writeActs_withData (cfg : OrientationConfig) (curDepth : BitDepth) (curAddr : Rect) (old data : List Byte)
    (depth : BitDepth) (area : Rect) :
    (writeActs cfg curDepth curAddr old depth area).map (Act.withData data) =
      writeActs cfg curDepth curAddr data depth area := by
  unfold writeActs
  split <;> split <;> rfl

/-! ## Where a WRITE stands before its data transfer -/

/-- The lines of a WRITE still to run: commands to enqueue and cache updates, then the data phase and the answer. -/
inductive WriteLines : List Act → Prop
  | dataPhase (data : List Byte) : WriteLines [.dataPhase data, .respond]
  | append (c : Command) {k : List Act} : WriteLines k → WriteLines (.append c :: k)
  | retry (c : Command) {k : List Act} : WriteLines k → WriteLines (.retry c :: k)
  | flush {k : List Act} : WriteLines k → WriteLines (.flush :: k)
  | setDepth (d : BitDepth) {k : List Act} : WriteLines k → WriteLines (.setDepth d :: k)
  | setAddr (q : Rect) {k : List Act} : WriteLines k → WriteLines (.setAddr q :: k)

theorem writeLines_writeActs (cfg : OrientationConfig) (curDepth : BitDepth) (curAddr : Rect) (data : List Byte)
    (depth : BitDepth) (area : Rect) : WriteLines (writeActs cfg curDepth curAddr data depth area) := by
  have last : WriteLines [.flush, .dataPhase data, .respond] := .flush (.dataPhase data)
  unfold writeActs
  split <;> split
  · exact .append _ (.setDepth _ (.append _ (.setAddr _ last)))
  · exact .append _ (.setDepth _ last)
  · exact .append _ (.setAddr _ last)
  · exact last

/-- What `s` had recorded and delivered stands, and no event recorded since holds a WRITE's data. -/
def QuietSince (s t : State) : Prop :=
  (∃ es, t.trace = s.trace ++ es ∧ ∀ data, es.map (Event.withData data) = es) ∧ ∃ ws, t.wire = s.wire ++ ws

/-- A resumption point of WRITE: the transfer of a FLUSH under DC Low, or the data transfer under DC High. -/
def AtWritePoint (t : State) : Prop :=
  match t.phase with
  | .idle => True
  | .busy _ (.delay _) _ => False
  | .busy _ .flush k => t.dc = .low ∧ WriteLines k
  | .busy _ (.data _) k => t.dc = .high ∧ k = [.respond]

/-- A WRITE called in `s` has come to `t` without a data transfer. -/
def BeforeData (s t : State) : Prop := QuietSince s t ∧ (t.life ≠ .faulted → AtWritePoint t)

/-- Whatever the data, `f` makes the same state before the data transfer, but for the data in what is suspended. -/
def Reaches (s : State) (f : List Byte → State) : Prop := ∃ v, BeforeData s v ∧ ∀ data, f data = v.withData data

theorem QuietSince.refl (s : State) : QuietSince s s := ⟨⟨[], by simp⟩, [], by simp⟩

namespace QuietSince

variable {s u : State} (h : QuietSince s u)
include h

theorem emit {e : Event} (he : ∀ data, e.withData data = e) : QuietSince s (u.emit e) := by
  obtain ⟨⟨es, htrace, hes⟩, hwire⟩ := h
  exact ⟨⟨es ++ [e], by simp [htrace], by simp [hes, he]⟩, hwire⟩

theorem deliver (bs : List Byte) : QuietSince s (u.deliver bs) := by
  obtain ⟨htrace, ws, hwire⟩ := h
  exact ⟨htrace, ws ++ bs.map (WireByte.mk u.dc), by simp [hwire]⟩

theorem pinSet (lvl : Level) : QuietSince s (pinSet .dc lvl u).2 := by
  obtain ⟨ps, n, hk | ⟨e, hk⟩⟩ := pinSet_shape .dc lvl u <;> rw [hk] <;> exact emit h fun _ => rfl

theorem fail (e : IoError) : BeforeData s (u.fail e) := ⟨emit h fun _ => rfl, fun _ => trivial⟩

theorem cancelled : BeforeData s u.cancelled := ⟨emit h fun _ => rfl, fun _ => trivial⟩

theorem raise (f : Fatal) : BeforeData s (u.raise f) := ⟨emit h fun _ => rfl, fun hl => absurd rfl hl⟩

/-! ### Running a WRITE's lines -/

theorem afterPin {op : Instr} {lvl : Level} {pt : AwaitPoint} {k : List Act}
    (hpt : ∀ t : State, t.dc = Level.line lvl → AtWritePoint (t.suspend op pt k)) :
    Reaches s fun data => afterPin (·.suspend (op.withData data) (pt.withData data) (k.map (Act.withData data)))
      (Machine.pinSet .dc lvl (u.withData data)) := by
  have hset := h.pinSet lvl
  simp only [pinSet_dc_withData]
  rcases hk : Machine.pinSet .dc lvl u with ⟨_ | e, t⟩ <;> rw [hk] at hset
  · exact ⟨t.suspend op pt k, ⟨hset, fun _ => hpt t (pinSet_dc_line hk)⟩, fun _ => rfl⟩
  · exact ⟨t.fail (.pin e), hset.fail _, fun _ => rfl⟩

theorem flushThen (op : Instr) {k : List Act} (hk : WriteLines k) :
    Reaches s fun data => flushThen (op.withData data) (k.map (Act.withData data)) (u.withData data) := by
  simp only [flushThen_eq]
  exact h.afterPin (pt := .flush) fun _ hdc => ⟨hdc, hk⟩

theorem dataThen (op : Instr) :
    Reaches s fun data => dataThen (op.withData data) data [.respond] (u.withData data) := by
  simp only [dataThen_eq]
  exact h.afterPin (lvl := .high) (pt := .data []) (k := [.respond]) fun _ hdc => ⟨hdc, rfl⟩

end QuietSince

/-- Up to its next resumption point a WRITE does not look at its data (20_memory.md R210): it makes one state for all
data. -/
theorem runActs_reaches {s : State} (op : Instr) {k : List Act} (hk : WriteLines k) {u : State} (h : QuietSince s u) :
    Reaches s fun data => runActs (op.withData data) (k.map (Act.withData data)) (u.withData data) := by
  induction hk generalizing u with
  | dataPhase _ => exact h.dataThen op
  | setDepth d _ ih => exact ih (u := u.setDepth d) h
  | setAddr q _ ih => exact ih (u := u.setAddr q) h
  | flush hk ih =>
    by_cases hb : u.buf = []
    · simpa [runActs, Act.withData, State.withData, hb] using ih h
    · simpa [runActs, Act.withData, State.withData, hb] using h.flushThen op hk
  | append c hk ih =>
    obtain ⟨f, ht⟩ | ⟨b, ht⟩ | ht := tryAppend_withData c u <;>
      simp only [List.map_cons, Act.withData, runActs, ht]
    · exact ⟨_, h.raise f, fun _ => rfl⟩
    · exact ih (u := u.setBuf (u.buf ++ b)) h
    · by_cases hb : u.buf = []
      · exact ⟨_, h.raise (.cmdTooLarge c), fun _ => if_pos hb⟩
      · simpa [State.withData, Act.withData, hb] using h.flushThen op (.retry c hk)
  | retry c _ ih =>
    obtain ⟨f, ht⟩ | ⟨b, ht⟩ | ht := tryAppend_withData c u <;>
      simp only [List.map_cons, Act.withData, runActs, ht]
    · exact ⟨_, h.raise f, fun _ => rfl⟩
    · exact ih (u := u.setBuf (u.buf ++ b)) h
    · exact ⟨_, h.raise (.cmdTooLarge c), fun _ => rfl⟩

/-! ## Two runs side by side -/

/-- Two outcomes of the same kind: states in the relation, or the same reason to stop. -/
def SameStop (R : State → State → Prop) :
    Host.Outcome State Fault Refusal → Host.Outcome State Fault Refusal → Prop
  | .next t, .next t' => R t t'
  | .fault r, .fault r' => r = r'
  | .refused r, .refused r' => r = r'
  | _, _ => False

/-- The registers, the answers to come and the result: the state without what is suspended and what was recorded. -/
def State.bare (s : State) : State := { s with phase := .idle, trace := [], wire := [] }

/-- Two states since `s` that differ only in the data: in what is suspended, in the data transfer's event and in the
delivered part of it. -/
def DataApart (s : State) (data data' : List Byte) (t t' : State) : Prop :=
  (∃ (es : List Event) (ws : List WireByte) (k : Nat),
    t.trace = s.trace ++ es.map (Event.withData data) ∧ t'.trace = s.trace ++ es.map (Event.withData data') ∧
    t.wire = s.wire ++ ws ++ wireOf .high (data.take k) ∧
    t'.wire = s.wire ++ ws ++ wireOf .high (data'.take k)) ∧
  (t.phase = .idle ↔ t'.phase = .idle) ∧ t.bare = t'.bare

section
variable {s : State} {data data' : List Byte}

theorem QuietSince.dataApart {u : State} (h : QuietSince s u) :
    DataApart s data data' (u.withData data) (u.withData data') := by
  obtain ⟨⟨es, htrace, hes⟩, ws, hwire⟩ := h
  refine ⟨⟨es, ws, 0, ?_⟩, by simp [State.withData_phase], rfl⟩
  simp [State.withData, wireOf, htrace, hes, hwire]

/-- The data transfer is the one place where the two runs part. -/
theorem QuietSince.transfer {u : State} (h : QuietSince s u) (hdc : u.dc = .high) (r : BusResult) (n : Nat) :
    DataApart s data data' (((u.withData data).emit (.bus u.dc data r)).deliver (data.take n))
      (((u.withData data').emit (.bus u.dc data' r)).deliver (data'.take n)) := by
  obtain ⟨⟨es, htrace, hes⟩, ws, hwire⟩ := h
  refine ⟨⟨es ++ [.bus .high [] r], ws, n, ?_⟩, by simp [State.withData_phase], rfl⟩
  simp [State.withData, wireOf, Event.withData, htrace, hes, hwire, hdc]

namespace DataApart

variable {t t' : State} (h : DataApart s data data' t t')
include h

theorem emit {e : Event} (he : ∀ d, e.withData d = e) : DataApart s data data' (t.emit e) (t'.emit e) := by
  obtain ⟨⟨es, ws, k, htrace, htrace', hwire⟩, hphase, hbare⟩ := h
  exact ⟨⟨es ++ [e], ws, k, by simp [htrace, he], by simp [htrace', he], hwire⟩, hphase, hbare⟩

theorem setLife (l : Life) : DataApart s data data' (t.setLife l) (t'.setLife l) := by
  obtain ⟨hrecords, hphase, hbare⟩ := h
  exact ⟨hrecords, hphase, congrArg (·.setLife l) hbare⟩

theorem ret (v : Result) : DataApart s data data' (t.ret v) (t'.ret v) := by
  obtain ⟨hrecords, -, hbare⟩ := h
  exact ⟨hrecords, Iff.rfl, congrArg (·.setResult v) hbare⟩

theorem respond : DataApart s data data' t.respond t'.respond := (h.emit fun _ => rfl).ret _

theorem fail (e : IoError) : DataApart s data data' (t.fail e) (t'.fail e) :=
  ((h.emit fun _ => rfl).setLife _).ret _

theorem cancelled : DataApart s data data' t.cancelled t'.cancelled := ((h.emit fun _ => rfl).setLife _).ret _

end DataApart

/-- The simulation between a WRITE of `data` and one of `data'`, both called in `s`: the two runs stand before
their data transfer at the same point, or have ended. -/
inductive WriteSim (s : State) (data data' : List Byte) : State → State → Prop
  | before {u : State} : BeforeData s u → WriteSim s data data' (u.withData data) (u.withData data')
  | ended {t t' : State} : DataApart s data data' t t' → t.phase = .idle → WriteSim s data data' t t'

theorem WriteSim.dataApart {t t' : State} (h : WriteSim s data data' t t') : DataApart s data data' t t' := by
  cases h with
  | before hu =>
    obtain ⟨hquiet, -⟩ := hu
    exact hquiet.dataApart
  | ended ht _ => exact ht

theorem Reaches.sim {f : List Byte → State} (h : Reaches s f) : WriteSim s data data' (f data) (f data') := by
  obtain ⟨v, hv, hf⟩ := h
  rw [hf, hf]
  exact .before hv

/-! ### One step -/

theorem accept_sameStop {R : State → State → Prop} {f f' : State → State} (h : Accepts s → R (f s) (f' s)) :
    SameStop R (accept s f) (accept s f') := by
  by_cases hl : s.life = .faulted
  · simp [accept_faulted hl, SameStop]
  · cases hp : s.phase with
    | busy op pt k => simp [accept_busy hl hp, SameStop]
    | idle =>
      have hs : Accepts s := ⟨hl, hp⟩
      simpa only [accept_of_accepts hs, SameStop] using h hs

/-- Two transfers that get the same answer. -/
theorem answerBus_sameStop {R : State → State → Prop} {t t' : State} {bytes bytes' : List Byte}
    {done done' : State → State} (hb : t.buses = t'.buses)
    (ok : ∀ as, R (done ((t.setBuses as).busDone bytes)) (done' ((t'.setBuses as).busDone bytes')))
    (err : ∀ as e n, R ((t.setBuses as).busFailed bytes e n) ((t'.setBuses as).busFailed bytes' e n))
    (cancel : ∀ as n, R ((t.setBuses as).busCancelled bytes n) ((t'.setBuses as).busCancelled bytes' n)) :
    SameStop R (answerBus bytes done t) (answerBus bytes' done' t') := by
  unfold answerBus
  rw [← hb]
  rcases t.buses with _ | ⟨_ | ⟨e, n⟩ | n, as⟩
  · rfl
  · exact ok as
  · exact err as e n
  · exact cancel as n

theorem resume_flush_sameStop {u : State} {op : Instr} {k : List Act} (hu : QuietSince s u) (hdc : u.dc = .low)
    (hk : WriteLines k) :
    SameStop (WriteSim s data data')
      (resume (op.withData data) .flush (k.map (Act.withData data)) (u.withData data))
      (resume (op.withData data') .flush (k.map (Act.withData data')) (u.withData data')) := by
  have sent : ∀ r as bs, QuietSince s (((u.setBuses as).emit (.bus u.dc u.buf r)).deliver bs) := fun r as bs =>
    (QuietSince.emit (u := u.setBuses as) hu fun _ => by rw [hdc]; rfl).deliver bs
  simp only [resume]
  refine answerBus_sameStop rfl (fun as => ?_) (fun as e n => ?_) (fun as n => ?_)
  · exact (runActs_reaches op hk (u := ((u.setBuses as).busDone u.buf).setBuf []) (sent .ok as u.buf)).sim
  · exact .before (u := (u.setBuses as).busFailed u.buf e n) ((sent (.err e) as _).fail _)
  · exact .before (u := (u.setBuses as).busCancelled u.buf n) (sent .cancelled as _).cancelled

theorem resume_data_sameStop {u : State} (op op' : Instr) (hu : QuietSince s u) (hdc : u.dc = .high) :
    SameStop (WriteSim s data data') (resume op (.data data) [.respond] (u.withData data))
      (resume op' (.data data') [.respond] (u.withData data')) := by
  have sent := fun r as n => QuietSince.transfer (data := data) (data' := data') (u := u.setBuses as) hu hdc r n
  refine answerBus_sameStop rfl (fun as => ?_) (fun as e n => ?_) (fun as n => ?_)
  · have all := sent .ok as (max data.length data'.length)
    rw [List.take_of_length_le (le_max_left _ _), List.take_of_length_le (le_max_right _ _)] at all
    exact .ended all.respond rfl
  · exact .ended ((sent (.err e) as n).fail _) rfl
  · exact .ended (sent .cancelled as n).cancelled rfl

theorem WriteSim.step {t t' : State} (h : WriteSim s data data' t t') (hbusy : t.phase ≠ .idle) :
    SameStop (WriteSim s data data') (step t) (step t') := by
  cases h with
  | ended _ hidle => exact absurd hidle hbusy
  | @before u hu =>
    obtain ⟨hquiet, hpoint⟩ := hu
    by_cases hl : u.life = .faulted
    · simp [Machine.step, State.withData, hl, SameStop]
    have hp := hpoint hl
    unfold AtWritePoint at hp
    have stepping : ∀ {op pt k} d, u.phase = .busy op pt k → Machine.step (u.withData d) =
        resume (op.withData d) (pt.withData d) (k.map (Act.withData d)) (u.withData d) := fun d hk =>
      step_busy (s := u.withData d) hl (by rw [State.withData_phase, hk]; rfl)
    rcases hk : u.phase with _ | ⟨op, _ | _ | bytes, k⟩ <;> rw [hk] at hp
    · exact absurd hk (by simpa [State.withData_phase] using hbusy)
    · exact hp.elim
    · obtain ⟨hdc, hlines⟩ := hp
      rw [stepping data hk, stepping data' hk]
      exact resume_flush_sameStop hquiet hdc hlines
    · obtain ⟨hdc, rfl⟩ := hp
      rw [stepping data hk, stepping data' hk]
      exact resume_data_sameStop _ _ hquiet hdc

theorem exec_write_sameStop (depth : BitDepth) (area : Rect) :
    SameStop (WriteSim s data data') (exec (.write data depth area) s) (exec (.write data' depth area) s) := by
  simp only [exec, execWrite]
  refine accept_sameStop fun hs => ?_
  have self : ∀ d, s.withData d = s := State.withData_of_idle hs.2
  split
  · have run := runActs_reaches (.write [] depth area)
      (writeLines_writeActs s.cfg s.depth s.addr [] depth area) (.refl s)
    simp only [self, writeActs_withData] at run
    exact run.sim
  · exact Reaches.sim (f := fun _ => s.raise (.writeArea area))
      ⟨_, (QuietSince.refl s).raise _, fun d => (State.withData_of_idle (s := s.raise _) hs.2 d).symm⟩

/-! ### The whole call -/

/-- At most `n` further steps of the call under way, after a step that answered this. -/
def thenRun (n : Nat) : Host.Outcome State Fault Refusal → Host.Outcome State Fault Refusal
  | .next t => runCall n t
  | .fault r => .fault r
  | .refused r => .refused r

theorem callIn_eq (n : Nat) (i : Instr) (s : State) : callIn n i s = thenRun n (exec i s) := rfl

theorem runCall_suspended {s : State} (n : Nat) (h : s.phase ≠ .idle) : runCall (n + 1) s = thenRun n (step s) := by
  rw [runCall]
  split
  · exact absurd ‹_› h
  · rfl

theorem SameStop.thenRun {R Q : State → State → Prop} {n : Nat} {o o' : Host.Outcome State Fault Refusal}
    (h : SameStop R o o') (hn : ∀ t t', R t t' → SameStop Q (runCall n t) (runCall n t')) :
    SameStop Q (thenRun n o) (thenRun n o') := by
  cases o <;> cases o'
  case next.next t t' => exact hn t t' h
  case fault.fault => exact h
  case refused.refused => exact h
  all_goals exact False.elim h

theorem runCall_sameStop (n : Nat) {t t' : State} (h : WriteSim s data data' t t') :
    SameStop (DataApart s data data') (runCall n t) (runCall n t') := by
  induction n generalizing t t' with
  | zero => exact h.dataApart
  | succ n ih =>
    obtain ⟨-, hphase, hbare⟩ := h.dataApart
    have hlife : t.life = t'.life := congrArg (·.life) hbare
    by_cases hidle : t.phase = .idle
    · by_cases hl : t.life = .faulted
      · rw [runCall_faulted n hl, runCall_faulted n (hlife ▸ hl)]
        rfl
      · rw [runCall_final _ ⟨hidle, hl⟩, runCall_final _ ⟨hphase.1 hidle, hlife ▸ hl⟩]
        exact h.dataApart
    · rw [runCall_suspended n hidle, runCall_suspended n (mt hphase.2 hidle)]
      exact (h.step hidle).thenRun fun _ _ => ih

theorem callIn_write_sameStop (n : Nat) (depth : BitDepth) (area : Rect) :
    SameStop (DataApart s data data') (callIn n (.write data depth area) s) (callIn n (.write data' depth area) s) := by
  rw [callIn_eq, callIn_eq]
  exact (exec_write_sameStop depth area).thenRun fun _ _ => runCall_sameStop n

end

/-- Settles O35, by a simulation of the two calls: they stand at the same point until the data transfer,
which ends both. -/
theorem writeIgnoresItsDataUntilTheDataPhase : Obligations.WriteIgnoresItsDataUntilTheDataPhase := by
  intro n data data' depth area s
  exact callIn_write_sameStop n depth area

end Machine
end Sys2Proof
end
section
/-! PROOFS of the family 30_encoding.md: the operand bytes, and the decoder against the encoder. -/

namespace Sys2Proof

/-! ## The operand bytes -/

@[simp] theorem clamp_natCast (n : Nat) : clamp (n : Int) = BitVec.ofNat 8 n := by
  simp [clamp]

theorem clamp_of_neg {v : Int} (h : v < 0) : clamp v = 0 := by
  simp [clamp, max_eq_right h.le]

theorem toNat_clamp_of_nonneg {v : Int} (h : 0 ≤ v) : ((clamp v).toNat : Int) = v % 256 := by
  lift v to Nat using h
  simp

theorem levelByte_of_le {level : Byte} (h : level.toNat ≤ 15) : levelByte level = level := by
  simp [levelByte, Nat.min_eq_left h]

@[simp] theorem pointBytes_pointOfBytes (x y : Byte) : pointBytes (pointOfBytes x y) = [x, y] := by
  simp [pointBytes, pointOfBytes]

/-- Wrapping round 256 takes the byte of the far edge back to what the width was read from (30_encoding.md R310). -/
theorem clamp_farEdge (b0 b1 : Byte) : clamp ((b0.toNat : Int) + ((b1 - b0).toNat + 1 : Nat) - 1) = b1 := by
  calc clamp ((b0.toNat : Int) + ((b1 - b0).toNat + 1 : Nat) - 1)
      = clamp ((b0.toNat + (b1 - b0).toNat : Nat) : Int) := by congr 1; push_cast; omega
    _ = b0 + (b1 - b0) := by rw [clamp_natCast, BitVec.ofNat_add]; simp only [BitVec.ofNat_toNat, BitVec.setWidth_eq]
    _ = b1 := by rw [BitVec.add_comm, BitVec.sub_add_cancel]

theorem Rect.cornersInRange_iff {p : Params} {r : Rect} : r.cornersInRange p = true ↔
    (p.coordMin ≤ r.right ∧ r.right ≤ p.coordMax) ∧ p.coordMin ≤ r.bottom ∧ r.bottom ≤ p.coordMax := by
  simp [Rect.cornersInRange, and_assoc]

theorem cornersInRange_rectOfBytes {p : Params} (h : p.RangesWf) (x0 y0 x1 y1 : Byte) :
    (rectOfBytes x0 y0 x1 y1).cornersInRange p = true := by
  obtain ⟨hmin, hmax, -⟩ := h
  have hw := (x1 - x0).isLt
  have hh := (y1 - y0).isLt
  have hx := x0.isLt
  have hy := y0.isLt
  simp only [Rect.cornersInRange_iff, Rect.right, Rect.bottom, rectOfBytes]
  omega

/-- RECT4 gives back the bytes that a rectangle was read from (30_encoding.md R312). -/
theorem rect4_rectOfBytes {p : Params} (h : p.RangesWf) (x0 y0 x1 y1 : Byte) :
    rect4 p (rectOfBytes x0 y0 x1 y1) = some ⟨x0, y0, x1, y1⟩ := by
  rw [rect4, if_pos (cornersInRange_rectOfBytes h ..)]
  simp only [rectOfBytes, Rect.right, Rect.bottom, clamp_farEdge, clamp_natCast, BitVec.ofNat_toNat, BitVec.setWidth_eq]

theorem withRect4_rectOfBytes {p : Params} (h : p.RangesWf) (c : Command) (x0 y0 x1 y1 : Byte)
    (f : RectBytes → List Byte) : withRect4 p c (rectOfBytes x0 y0 x1 y1) f = .ok (f ⟨x0, y0, x1, y1⟩) := by
  rw [withRect4, rect4_rectOfBytes h]

theorem withNonEmptyRect4_rectOfBytes {p : Params} (h : p.RangesWf) (c : Command) (x0 y0 x1 y1 : Byte)
    (f : RectBytes → List Byte) : withNonEmptyRect4 p c (rectOfBytes x0 y0 x1 y1) f = .ok (f ⟨x0, y0, x1, y1⟩) := by
  rw [withNonEmptyRect4, if_neg (by simp [Rect.empty, rectOfBytes]), withRect4_rectOfBytes h]

/-! ### The canonical operands are the ones that bytes stand for -/

theorem exists_byte {v : Int} (h0 : 0 ≤ v) (h : v ≤ 255) : ∃ b : Byte, (b.toNat : Int) = v := by
  refine ⟨BitVec.ofNat 8 v.toNat, ?_⟩
  rw [BitVec.toNat_ofNat]
  omega

theorem exists_farByte (b0 : Byte) {w : Nat} (h0 : 1 ≤ w) (h : w ≤ 256) : ∃ b1 : Byte, (b1 - b0).toNat + 1 = w := by
  refine ⟨BitVec.ofNat 8 (w - 1) + b0, ?_⟩
  rw [BitVec.add_sub_cancel, BitVec.toNat_ofNat]
  omega

theorem Point.eq_pointOfBytes {q : Point} (h : q.canonical = true) : ∃ x y, q = pointOfBytes x y := by
  obtain ⟨x, y⟩ := q
  simp only [Point.canonical, Bool.and_eq_true, decide_eq_true_eq] at h
  obtain ⟨⟨⟨hx0, hx⟩, hy0⟩, hy⟩ := h
  obtain ⟨x, rfl⟩ := exists_byte hx0 hx
  obtain ⟨y, rfl⟩ := exists_byte hy0 hy
  exact ⟨x, y, rfl⟩

theorem Rect.eq_rectOfBytes {r : Rect} (h : r.canonical = true) : ∃ x0 y0 x1 y1, r = rectOfBytes x0 y0 x1 y1 := by
  obtain ⟨x, y, w, ht⟩ := r
  simp only [Rect.canonical, Bool.and_eq_true, decide_eq_true_eq] at h
  obtain ⟨⟨⟨⟨⟨⟨⟨hx0, hx⟩, hy0⟩, hy⟩, hw0⟩, hw⟩, hh0⟩, hh⟩ := h
  obtain ⟨x0, rfl⟩ := exists_byte hx0 hx
  obtain ⟨y0, rfl⟩ := exists_byte hy0 hy
  obtain ⟨x1, rfl⟩ := exists_farByte x0 hw0 hw
  obtain ⟨y1, rfl⟩ := exists_farByte y0 hh0 hh
  exact ⟨x0, y0, x1, y1, rfl⟩

/-! ### The flags byte is read back -/

theorem flags_of_unflags {p : Params} {f : Byte} {q : OrientationConfig × BitDepth} (h : unflags p f = some q) :
    flags p q.1 q.2 = f := by
  simpa using List.find?_some h

theorem unflags_flags {p : Params} (hp : p.CodesWf) (cfg : OrientationConfig) (d : BitDepth) :
    unflags p (flags p cfg d) = some (cfg, d) := by
  have hsome : (unflags p (flags p cfg d)).isSome = true := by
    rw [unflags, List.find?_isSome]
    exact ⟨(cfg, d), mem_flagArgs cfg d, beq_self_eq_true _⟩
  obtain ⟨⟨cfg', d'⟩, hq⟩ := Option.isSome_iff_exists.1 hsome
  have hflags : flags p cfg' d' = flags p cfg d := flags_of_unflags (q := (cfg', d')) hq
  obtain ⟨rfl, rfl⟩ := flagsIsInjective p cfg' cfg d' d hp hflags
  exact hq

/-! ## The words of the formats

The decoder and the encoder are each compared with the table of formats, and so with each other. -/

/-- The word `b` is the command `c` in the formats of 30_encoding.md R301, its operands read as the decoder reads them
(log 16). -/
inductive Reads (p : Params) : Command → List Byte → Prop
  | masterCurrent (l : Byte) : Reads p (.masterCurrent l) [0x87, l]
  | contrast (r g b : Byte) : Reads p (.contrast r g b) [0x81, r, 0x82, g, 0x83, b]
  | displayOn (on : Bool) : Reads p (.displayOn on) [0xAE ||| boolByte on]
  | remapAndColorDepth {f : Byte} {q : OrientationConfig × BitDepth} (h : unflags p f = some q) :
      Reads p (.remapAndColorDepth q.1 q.2) [0xA0, f]
  | clearWindow (x0 y0 x1 y1 : Byte) : Reads p (.clearWindow (rectOfBytes x0 y0 x1 y1)) [0x25, x0, y0, x1, y1]
  | addressRectangle (x0 y0 x1 y1 : Byte) :
      Reads p (.addressRectangle (rectOfBytes x0 y0 x1 y1)) [0x15, x0, x1, 0x75, y0, y1]
  | drawLine (x0 y0 x1 y1 cr cg cb : Byte) :
      Reads p (.drawLine (pointOfBytes x0 y0) (pointOfBytes x1 y1) cr cg cb) [0x21, x0, y0, x1, y1, cr, cg, cb]
  | drawRectangle (x0 y0 x1 y1 br bg bb fr fg fb : Byte) :
      Reads p (.drawRectangle (rectOfBytes x0 y0 x1 y1) br bg bb fr fg fb)
        [0x22, x0, y0, x1, y1, br, bg, bb, fr, fg, fb]
  | setFillEnabled (e : Bool) : Reads p (.setFillEnabled e) [0x26, boolByte e]
  | noOp : Reads p .noOp [0xBC]

section
variable {p : Params} {c : Command} {b k : List Byte}

/-- The decoder accepts every word of the formats, whatever follows it. -/
theorem Reads.decodeCommand_append (h : Reads p c b) (k : List Byte) : decodeCommand p (b ++ k) = .ok (c, k) := by
  cases h
  case displayOn on => cases on <;> rfl
  case setFillEnabled e => cases e <;> rfl
  case remapAndColorDepth f q h =>
    change decodeArgs p 0xA0 (f :: k) = _
    simp [decodeArgs, h]
  all_goals rfl

/-- The decoder accepts nothing but words of the formats: one row of the table for each of its branches. -/
theorem reads_of_decodeArgs {op : Byte} {tl : List Byte} (h : decodeArgs p op tl = .ok (c, k)) :
    ∃ args, Reads p c (op :: args) ∧ tl = args ++ k := by
  unfold decodeArgs at h
  obtain ⟨rfl, h⟩ | ⟨-, h⟩ := ite_eq_iff.1 h
  · cases h; exact ⟨[], .noOp, rfl⟩
  obtain ⟨rfl, h⟩ | ⟨-, h⟩ := ite_eq_iff.1 h
  · cases h; exact ⟨[], .displayOn false, rfl⟩
  obtain ⟨rfl, h⟩ | ⟨-, h⟩ := ite_eq_iff.1 h
  · cases h; exact ⟨[], .displayOn true, rfl⟩
  obtain ⟨rfl, h⟩ | ⟨-, h⟩ := ite_eq_iff.1 h
  · split at h <;> cases h
    exact ⟨_, .masterCurrent _, rfl⟩
  obtain ⟨rfl, h⟩ | ⟨-, h⟩ := ite_eq_iff.1 h
  · split at h
    · split at h <;> cases h
      exact ⟨_, .remapAndColorDepth ‹_›, rfl⟩
    · cases h
  obtain ⟨rfl, h⟩ | ⟨-, h⟩ := ite_eq_iff.1 h
  · split at h
    · obtain ⟨rfl, h⟩ | ⟨-, h⟩ := ite_eq_iff.1 h
      · cases h; exact ⟨_, .setFillEnabled false, rfl⟩
      obtain ⟨rfl, h⟩ | ⟨-, h⟩ := ite_eq_iff.1 h <;> cases h
      exact ⟨_, .setFillEnabled true, rfl⟩
    · cases h
  obtain ⟨rfl, h⟩ | ⟨-, h⟩ := ite_eq_iff.1 h
  · split at h <;> cases h
    exact ⟨_, .clearWindow .., rfl⟩
  obtain ⟨rfl, h⟩ | ⟨-, h⟩ := ite_eq_iff.1 h
  · split at h
    · obtain ⟨⟨rfl, rfl⟩, h⟩ | ⟨-, h⟩ := ite_eq_iff.1 h <;> cases h
      exact ⟨_, .contrast .., rfl⟩
    · cases h
  obtain ⟨rfl, h⟩ | ⟨-, h⟩ := ite_eq_iff.1 h
  · split at h
    · obtain ⟨rfl, h⟩ | ⟨-, h⟩ := ite_eq_iff.1 h <;> cases h
      exact ⟨_, .addressRectangle .., rfl⟩
    · cases h
  obtain ⟨rfl, h⟩ | ⟨-, h⟩ := ite_eq_iff.1 h
  · split at h <;> cases h
    exact ⟨_, .drawLine .., rfl⟩
  obtain ⟨rfl, h⟩ | ⟨-, h⟩ := ite_eq_iff.1 h
  · split at h <;> cases h
    exact ⟨_, .drawRectangle .., rfl⟩
  obtain ⟨-, h⟩ | ⟨-, h⟩ := ite_eq_iff.1 h <;> cases h

theorem decodeCommand_ok_iff {bs : List Byte} :
    decodeCommand p bs = .ok (c, k) ↔ ∃ b, Reads p c b ∧ bs = b ++ k := by
  constructor
  · intro h
    cases bs with
    | nil => cases h
    | cons op tl =>
      obtain ⟨args, hr, rfl⟩ := reads_of_decodeArgs h
      exact ⟨op :: args, hr, rfl⟩
  · rintro ⟨b, hr, rfl⟩
    exact hr.decodeCommand_append k

/-- The encoder gives every word of the formats but those with a level above 15 (30_encoding.md R315). -/
theorem Reads.enc_eq (hp : p.RangesWf) (h : Reads p c b) (hl : ∀ level, c = .masterCurrent level → level.toNat ≤ 15) :
    enc p c = .ok b := by
  cases h
  case masterCurrent l => rw [enc, levelByte_of_le (hl l rfl)]
  case remapAndColorDepth f q h => rw [enc, flags_of_unflags h]
  case clearWindow => exact withNonEmptyRect4_rectOfBytes hp ..
  case addressRectangle => exact withNonEmptyRect4_rectOfBytes hp ..
  case drawRectangle => exact withRect4_rectOfBytes hp ..
  case drawLine => simp [enc]
  all_goals rfl

theorem reads_of_canonical (hp : p.CodesWf) (h : c.canonical = true) : ∃ b, Reads p c b := by
  cases c
  case masterCurrent l => exact ⟨_, .masterCurrent l⟩
  case contrast r g b => exact ⟨_, .contrast r g b⟩
  case displayOn on => exact ⟨_, .displayOn on⟩
  case remapAndColorDepth cfg d => exact ⟨_, .remapAndColorDepth (unflags_flags hp cfg d)⟩
  case clearWindow r =>
    obtain ⟨x0, y0, x1, y1, rfl⟩ := Rect.eq_rectOfBytes h
    exact ⟨_, .clearWindow ..⟩
  case addressRectangle r =>
    obtain ⟨x0, y0, x1, y1, rfl⟩ := Rect.eq_rectOfBytes h
    exact ⟨_, .addressRectangle ..⟩
  case drawLine p0 p1 cr cg cb =>
    obtain ⟨h0, h1⟩ : p0.canonical = true ∧ p1.canonical = true := by simpa [Command.canonical] using h
    obtain ⟨x0, y0, rfl⟩ := Point.eq_pointOfBytes h0
    obtain ⟨x1, y1, rfl⟩ := Point.eq_pointOfBytes h1
    exact ⟨_, .drawLine ..⟩
  case drawRectangle r br bg bb fr fg fb =>
    obtain ⟨x0, y0, x1, y1, rfl⟩ := Rect.eq_rectOfBytes h
    exact ⟨_, .drawRectangle ..⟩
  case setFillEnabled e => exact ⟨_, .setFillEnabled e⟩
  case noOp => exact ⟨_, .noOp⟩

/-- A canonical command is one word of the formats, for the encoder and the decoder alike. -/
theorem enc_reads_of_canonical (hp : p.CodesWf) (hr : p.RangesWf) (h : c.canonical = true) :
    ∃ b, enc p c = .ok b ∧ Reads p c b := by
  obtain ⟨b, hb⟩ := reads_of_canonical hp h
  refine ⟨b, hb.enc_eq hr ?_, hb⟩
  rintro level rfl
  simpa [Command.canonical] using h

/-! ## Instructions -/

@[simp] theorem Command.command?_toInstr (c : Command) : c.toInstr.command? = some c := by
  cases c <;> rfl

theorem encode_toInstr (h : enc p c = .ok b) : encode p c.toInstr = some b := by
  simp [encode, h]

theorem decode_ok_iff {bs : List Byte} {i : Instr} :
    decode p bs = .ok (i, k) ↔ ∃ c, decodeCommand p bs = .ok (c, k) ∧ i = c.toInstr := by
  unfold decode
  cases decodeCommand p bs with
  | error e => simp
  | ok r =>
    obtain ⟨c, k'⟩ := r
    simp only [Except.ok.injEq, Prod.mk.injEq]
    constructor
    · rintro ⟨rfl, rfl⟩
      exact ⟨c, ⟨rfl, rfl⟩, rfl⟩
    · rintro ⟨_, ⟨rfl, rfl⟩, rfl⟩
      exact ⟨rfl, rfl⟩

/-! ## Streams -/

theorem decodeStream_of_decodeCommand {n : Nat} {bs : List Byte} {cs : List Command}
    (h : decodeCommand p bs = .ok (c, k)) (hk : decodeStream p n k = .ok cs) :
    decodeStream p (n + 1) bs = .ok (c :: cs) := by
  cases bs with
  | nil => cases h
  | cons op tl => simp [decodeStream, h, hk]

/-- The length of the byte string is fuel enough, since every command takes at least one byte. -/
theorem decodeStream_flatten (hp : p.CodesWf) (hr : p.RangesWf) {cs : List Command} {es : List (List Byte)}
    (hc : ∀ c ∈ cs, c.canonical = true) (he : encAll p cs = .ok es) {n : Nat} (hn : es.flatten.length ≤ n) :
    decodeStream p n es.flatten = .ok cs := by
  induction cs generalizing es n with
  | nil => cases he; cases n <;> rfl
  | cons c cs ih =>
    obtain ⟨b, bs, hb, hbs, rfl⟩ := encAll_cons_ok.1 he
    obtain ⟨b', hb', hread⟩ := enc_reads_of_canonical hp hr (hc c List.mem_cons_self)
    obtain rfl : b = b' := Except.ok.inj (hb.symm.trans hb')
    have hpos : 1 ≤ b.length := enc_length hb ▸ c.len_pos
    rw [List.flatten_cons, List.length_append] at hn
    obtain ⟨m, rfl⟩ : ∃ m, n = m + 1 := ⟨n - 1, by omega⟩
    exact decodeStream_of_decodeCommand (hread.decodeCommand_append bs.flatten)
      (ih (fun c' h' => hc c' (List.mem_cons_of_mem c h')) hbs (by omega))

end

/-! ## The statements -/

/-- Settles O9: a canonical command's encoding is its word in the formats, and the decoder reads that word. -/
theorem decodeOfEncodeIsTheCommand : Obligations.DecodeOfEncodeIsTheCommand := by
  intro p c k hp hr hc
  obtain ⟨b, hb, hread⟩ := enc_reads_of_canonical hp hr hc
  exact ⟨b, hb, encode_toInstr hb, decode_ok_iff.2 ⟨c, hread.decodeCommand_append k, rfl⟩⟩

/-- Settles O11, by induction on the commands. -/
theorem streamSplitsIntoItsCommands : Obligations.StreamSplitsIntoItsCommands :=
  fun _ _ _ hp hr hc he => decodeStream_flatten hp hr hc he le_rfl

/-- Settles O10: what the decoder accepts is a word of the formats, and the encoder gives that word. -/
theorem encodeOfDecodeIsTheWord : Obligations.EncodeOfDecodeIsTheWord := by
  intro p bs k i hr hdec hl
  obtain ⟨c, hc, rfl⟩ := decode_ok_iff.1 hdec
  obtain ⟨b, hread, rfl⟩ := decodeCommand_ok_iff.1 hc
  have hlevel : ∀ level, c = .masterCurrent level → level.toNat ≤ 15 := by
    rintro level rfl
    exact hl level rfl
  exact ⟨b, encode_toInstr (hread.enc_eq hr hlevel), rfl⟩

/-- Settles O12: each word is read by evaluation. -/
theorem writtenOutWordsDecode : Obligations.WrittenOutWordsDecode := by
  unfold Obligations.WrittenOutWordsDecode
  and_intros
  all_goals decide

namespace Machine

theorem exec_clamp {s : State} (hs : Accepts s) (v : Int) :
    exec (.clamp v) s = .next (s.setResult (.byte (clamp v))) := by
  rw [← State.ret_of_idle hs.2]
  exact accept_of_accepts hs fun s => s.ret (.byte (clamp v))

/-- Settles O8, from the two cases of clamp (30_encoding.md R310). -/
theorem clampIsZeroBelowAndWrapsAbove : Obligations.ClampIsZeroBelowAndWrapsAbove :=
  fun v _ hs => ⟨clamp v, exec_clamp hs v, clamp_of_neg, toNat_clamp_of_nonneg⟩

end Machine
end Sys2Proof
end
section
/-! PROOFS of the family 41_command_encoder.md: the command rows, the encoder functions and SEND. -/

namespace Sys2Proof

/-! ## The operands of the command rows -/

theorem clamp_eq_coordByte (v : Int) : clamp v = coordByte v := by
  unfold coordByte
  split
  · exact clamp_of_neg ‹_›
  · lift v to Nat using not_lt.1 ‹_›
    rw [clamp_natCast, BitVec.ofInt_natCast]

theorem levelByte_eq (level : Byte) : levelByte level = if level.toNat ≤ 15 then level else 15 := by
  split
  · exact levelByte_of_le ‹_›
  · rw [levelByte, Nat.min_eq_right (by omega)]
    rfl

theorem displayByte_eq (on : Bool) : (0xAE : Byte) ||| boolByte on = if on then 0xAF else 0xAE := by
  cases on <;> rfl

/-- The OR of the five codes (10_state.md R113), each code chosen by its field. -/
theorem flags_eq (p : Params) (cfg : OrientationConfig) (d : BitDepth) : flags p cfg d =
    (if cfg.order = .rowMajor then p.codeRowMajor else p.codeColumnMajor) |||
    (if cfg.coldir = .leftToRight then p.codeLeftToRight else p.codeRightToLeft) |||
    (if cfg.rowdir = .normal then p.codeNormal else p.codeReversed) |||
    (if cfg.interleave = .interleaved then p.codeInterleaved else p.codeNotInterleaved) |||
    (if d = .eight then p.codeEight else p.codeSixteen) := by
  have order : ∀ v, p.codeOrder v = if v = .rowMajor then p.codeRowMajor else p.codeColumnMajor := by
    rintro ⟨⟩ <;> rfl
  have coldir : ∀ v, p.codeColdir v = if v = .leftToRight then p.codeLeftToRight else p.codeRightToLeft := by
    rintro ⟨⟩ <;> rfl
  have rowdir : ∀ v, p.codeRowdir v = if v = .normal then p.codeNormal else p.codeReversed := by
    rintro ⟨⟩ <;> rfl
  have interleave : ∀ v,
      p.codeInterleave v = if v = .interleaved then p.codeInterleaved else p.codeNotInterleaved := by
    rintro ⟨⟩ <;> rfl
  have depth : ∀ v, p.codeDepth v = if v = .eight then p.codeEight else p.codeSixteen := by
    rintro ⟨⟩ <;> rfl
  rw [flags, order, coldir, rowdir, interleave, depth]

/-- Both corner sums lie in the coordinate range (30_encoding.md R311). -/
def CornersIn (p : Params) (r : Rect) : Prop :=
  p.coordMin ≤ r.x + r.w - 1 ∧ r.x + r.w - 1 ≤ p.coordMax ∧
  p.coordMin ≤ r.y + r.h - 1 ∧ r.y + r.h - 1 ≤ p.coordMax

theorem cornersInRange_iff_cornersIn {p : Params} {r : Rect} : r.cornersInRange p = true ↔ CornersIn p r :=
  Rect.cornersInRange_iff.trans and_assoc

/-- The four coordinate bytes of a rectangle (30_encoding.md R310, R312). -/
def cornerBytes (r : Rect) : RectBytes :=
  ⟨coordByte r.x, coordByte r.y, coordByte (r.x + r.w - 1), coordByte (r.y + r.h - 1)⟩

section
variable {p : Params} {c : Command} {r : Rect} {f : RectBytes → List Byte}

theorem withRect4_of_cornersIn (h : CornersIn p r) : withRect4 p c r f = .ok (f (cornerBytes r)) := by
  simp only [withRect4, rect4, if_pos (cornersInRange_iff_cornersIn.2 h), clamp_eq_coordByte]
  rfl

theorem withRect4_of_not_cornersIn (h : ¬ CornersIn p r) : withRect4 p c r f = .error (.coordRange c) := by
  simp only [withRect4, rect4, if_neg (mt cornersInRange_iff_cornersIn.1 h)]

theorem withNonEmptyRect4_of_empty (h : r.w = 0 ∨ r.h = 0) :
    withNonEmptyRect4 p c r f = .error (.emptyRect c) :=
  if_pos (by simpa [Rect.empty] using h)

theorem withNonEmptyRect4_of_nonEmpty (hw : r.w ≠ 0) (hh : r.h ≠ 0) :
    withNonEmptyRect4 p c r f = withRect4 p c r f :=
  if_neg (by simp [Rect.empty, hw, hh])

end

/-! ## Encoding a list -/

theorem encAll_error {p : Params} {pre post : List Command} {c : Command} {es : List (List Byte)} {f : Fatal}
    (hpre : encAll p pre = .ok es) (hc : enc p c = .error f) : encAll p (pre ++ c :: post) = .error f := by
  induction pre generalizing es with
  | nil => simp [encAll, hc]
  | cons d ds ih =>
    obtain ⟨b, bs, hb, hbs, rfl⟩ := encAll_cons_ok.1 hpre
    simp [encAll, hb, ih hbs]

theorem enc_of_mem_encAll {p : Params} {cs : List Command} {es : List (List Byte)} (h : encAll p cs = .ok es)
    {e : List Byte} (he : e ∈ es) : ∃ c, enc p c = .ok e := by
  induction cs generalizing es with
  | nil => cases h; cases he
  | cons c cs ih =>
    obtain ⟨b, bs, hb, hbs, rfl⟩ := encAll_cons_ok.1 h
    obtain rfl | he := List.mem_cons.1 he
    · exact ⟨c, hb⟩
    · exact ih hbs he

namespace Machine

/-! ## The command rows as calls -/

theorem State.raise_eq_faultedBy (s : State) (f : Fatal) : s.raise f = faultedBy s f := rfl

section
variable {i : Instr} {c : Command} {s : State} (hi : i.command? = some c) (hs : Accepts s)
include hi hs

theorem exec_command_ok {b : List Byte} (h : enc s.par c = .ok b) :
    exec i s = .next (s.setResult (.bytes b)) := by
  rw [exec_of_command hi, encodeCall, accept_of_accepts hs]
  simp only [h, State.ret_of_idle hs.2]

theorem exec_command_error {f : Fatal} (h : enc s.par c = .error f) : exec i s = .next (faultedBy s f) := by
  rw [exec_of_command hi, encodeCall, accept_of_accepts hs]
  simp only [h, State.raise_eq_faultedBy]

/-- What a row does whose command is encoded by `withRect4`. -/
theorem exec_rect4 {r : Rect} {f : RectBytes → List Byte} (h : enc s.par c = withRect4 s.par c r f) :
    (CornersIn s.par r → exec i s = .next (s.setResult (.bytes (f (cornerBytes r))))) ∧
    (¬ CornersIn s.par r → exec i s = .next (faultedBy s (.coordRange c))) :=
  ⟨fun hr => exec_command_ok hi hs (h.trans (withRect4_of_cornersIn hr)),
   fun hr => exec_command_error hi hs (h.trans (withRect4_of_not_cornersIn hr))⟩

/-- What a row does whose command is encoded by `withNonEmptyRect4`. -/
theorem exec_nonEmptyRect4 {r : Rect} {f : RectBytes → List Byte} (h : enc s.par c = withNonEmptyRect4 s.par c r f) :
    (r.w = 0 ∨ r.h = 0 → exec i s = .next (faultedBy s (.emptyRect c))) ∧
    (r.w ≠ 0 → r.h ≠ 0 → CornersIn s.par r → exec i s = .next (s.setResult (.bytes (f (cornerBytes r))))) ∧
    (r.w ≠ 0 → r.h ≠ 0 → ¬ CornersIn s.par r → exec i s = .next (faultedBy s (.coordRange c))) := by
  refine ⟨fun he => exec_command_error hi hs (h.trans (withNonEmptyRect4_of_empty he)), fun hw hh => ?_,
    fun hw hh => ?_⟩
  · exact (exec_rect4 hi hs (h.trans (withNonEmptyRect4_of_nonEmpty hw hh))).1
  · exact (exec_rect4 hi hs (h.trans (withNonEmptyRect4_of_nonEmpty hw hh))).2

end

/-- Settles O1: the level byte is the level or 15. -/
theorem masterCurrentReturnsLevelAtMostFifteen : Obligations.MasterCurrentReturnsLevelAtMostFifteen := by
  intro level s hs
  rw [← levelByte_eq]
  exact exec_command_ok rfl hs rfl

/-- Settles O2: none of the four rows can fault, and each encoding is written out. -/
theorem plainCommandsReturnTheirBytes : Obligations.PlainCommandsReturnTheirBytes := by
  intro s hs
  refine ⟨fun r g b => exec_command_ok rfl hs rfl, fun on => ?_, fun e => exec_command_ok rfl hs rfl,
    exec_command_ok rfl hs rfl⟩
  rw [← displayByte_eq]
  exact exec_command_ok rfl hs rfl

/-- Settles O3: each code is the one its field chooses. -/
theorem remapReturnsTheOrOfItsCodes : Obligations.RemapReturnsTheOrOfItsCodes := by
  intro cfg d s hs
  rw [← flags_eq]
  exact exec_command_ok rfl hs rfl

/-- Settles O4, a row that refuses an empty rectangle. -/
theorem clearWindowReturnsCornersOrFaults : Obligations.ClearWindowReturnsCornersOrFaults :=
  fun _ _ hs => exec_nonEmptyRect4 rfl hs (f := fun b => 0x25 :: b.toList) rfl

/-- Settles O5, a row that refuses an empty rectangle. -/
theorem addressRectangleReturnsRangesOrFaults : Obligations.AddressRectangleReturnsRangesOrFaults :=
  fun _ _ hs => exec_nonEmptyRect4 rfl hs (f := fun b => [0x15, b.x0, b.x1, 0x75, b.y0, b.y1]) rfl

/-- Settles O6: each coordinate is clamped on its own. -/
theorem drawLineReturnsPointsAndColour : Obligations.DrawLineReturnsPointsAndColour := by
  intro p0 p1 cr cg cb s hs
  simp only [← clamp_eq_coordByte]
  exact exec_command_ok rfl hs rfl

/-- Settles O7, a row that encodes an empty rectangle as it stands. -/
theorem drawRectangleReturnsCornersOrFaults : Obligations.DrawRectangleReturnsCornersOrFaults :=
  fun _ br bg bb fr fg fb _ hs =>
    exec_rect4 rfl hs (f := fun b => 0x22 :: b.toList ++ [br, bg, bb, fr, fg, fb]) rfl

/-! ## TRY_APPEND -/

/-- Settles O15, from the three answers of TRY_APPEND. -/
theorem tryAppendAppendsWholeOrNotAtAll : Obligations.TryAppendAppendsWholeOrNotAtAll := by
  intro c s hs
  have hret : ∀ b v, (s.setBuf b).ret v = (s.setBuf b).setResult v := fun b => State.ret_of_idle hs.2
  simp only [exec, execTryAppend, accept_of_accepts hs]
  refine ⟨fun b hb hfit => ?_, fun b hb hfull => ?_, fun f hf => ?_⟩
  · simp only [tryAppend_fits hb hfit, hret]
    rfl
  · simp only [tryAppend_full hb (not_le.2 hfull), State.ret_of_idle hs.2]
    rfl
  · simp only [tryAppend_fatal hf, State.raise_eq_faultedBy]

/-! ## FLUSH -/

theorem nextPin_listed {s : State} {a : PinAnswer} {ps : List PinAnswer} (h : s.pins = a :: ps) :
    s.nextPin = (a, s.setPins ps) := by
  simp [State.nextPin, h]

theorem nextPin_free {s : State} (h : s.pins = []) :
    s.nextPin = (Config.freePin s.pinDraw, s.setPinDraw (s.pinDraw + 1)) := by
  simp [State.nextPin, h]

/-- The state at a FLUSH's transfer, once DC has been driven Low (41_command_encoder.md R403). -/
def State.flushing (s : State) (op : Instr) (k : List Act) : State :=
  ((s.setDc .low).emit (.pin .dc .low .ok)).suspend op .flush k

/-- The state after a FLUSH answered Ok, with the answers `as` still to come (41_command_encoder.md R403). -/
def State.flushed (s : State) (as : List BusAnswer) : State :=
  { s with
    buses := as, buf := [], dc := .low
    trace := s.trace ++ flushEvents s.buf, wire := s.wire ++ wireOf .low s.buf }

/-- The state after a FLUSH whose transfer failed once `n` bytes were delivered (60_exceptions.md R610). -/
def State.flushFailed (s : State) (as : List BusAnswer) (e : EnvError) (n : Nat) : State :=
  { s with
    buses := as, dc := .low, life := .indeterminate, phase := .idle, result := .err (.bus e)
    trace := s.trace ++ [.pin .dc .low .ok, .bus .low s.buf (.err e), .resp (.err (.bus e))]
    wire := s.wire ++ wireOf .low (s.buf.take n) }

theorem State.ret_setPhase (s : State) (ph : Phase) (v : Result) : (s.setPhase ph).ret v = s.ret v := rfl

theorem State.flushing_busDone (s : State) (op : Instr) (k : List Act) (as : List BusAnswer) :
    (((s.flushing op k).setBuses as).busDone s.buf).setBuf [] = (s.flushed as).setPhase (.busy op .flush k) := by
  rw [State.flushed, flushEvents, List.append_cons s.trace]
  rfl

theorem State.flushing_busFailed (s : State) (op : Instr) (k : List Act) (as : List BusAnswer) (e : EnvError)
    (n : Nat) : ((s.flushing op k).setBuses as).busFailed s.buf e n = s.flushFailed as e n := by
  simp [State.flushFailed, State.flushing, State.suspend, State.busFailed, State.fail, State.ret, State.emit,
    State.deliver, State.setBuses, State.setLife, State.setResult, State.setDc, State.setPhase, wireOf]

section
variable {op : Instr} {k : List Act} {s t : State} {as : List BusAnswer} {e : EnvError} {m : Nat} (n : Nat)

theorem flushThen_pin_ok (h : s.nextPin = (.ok, t)) : flushThen op k s = t.flushing op k := by
  simp only [flushThen, pinSet, h]
  rfl

theorem flushThen_pin_err (h : s.nextPin = (.err e, t)) :
    flushThen op k s = ((t.setDc .unknown).emit (.pin .dc .low (.err e))).fail (.pin e) := by
  simp only [flushThen, pinSet, h]
  rfl

/-- A FLUSH answered Ok at both its primitives takes one step and goes on with what follows it. -/
theorem runCall_flushThen_ok (hl : t.life ≠ .faulted) (hp : s.nextPin = (.ok, t)) (hb : t.buses = .ok :: as) :
    runCall (n + 1) (flushThen op k s) =
      runCall n (runActs op k ((t.flushed as).setPhase (.busy op .flush k))) := by
  rw [flushThen_pin_ok hp, runCall_flush_ok (s := t.flushing op k) n hl rfl hb]
  exact congrArg (runCall n <| runActs op k ·) (t.flushing_busDone op k as)

theorem runCall_flushThen_bus_err (hl : t.life ≠ .faulted) (hp : s.nextPin = (.ok, t))
    (hb : t.buses = .err e m :: as) : runCall (n + 1) (flushThen op k s) = .next (t.flushFailed as e m) := by
  have hstep : step (t.flushing op k) = .next (t.flushFailed as e m) := by
    rw [step_busy (s := t.flushing op k) hl rfl, resume, answerBus]
    simp only [show (t.flushing op k).buses = .err e m :: as from hb]
    exact congrArg _ (t.flushing_busFailed op k as e m)
  rw [flushThen_pin_ok hp, runCall_busy n rfl hstep]
  exact runCall_final n ⟨rfl, nofun⟩

end

theorem exec_flush_of_empty {s : State} (hs : Accepts s) (hb : s.buf = []) :
    exec .flush s = .next (s.setResult .unit) := by
  simp [exec, execFlush, accept_of_accepts hs, runActs, hb, State.ret_of_idle hs.2]

theorem exec_flush_of_pending {s : State} (hs : Accepts s) (hb : s.buf ≠ []) :
    exec .flush s = .next (flushThen .flush [.ret] s) := by
  simp [exec, execFlush, accept_of_accepts hs, runActs, hb]

section
variable {s t : State} (hs : Accepts s) (hbuf : s.buf ≠ []) (ht : Accepts t)
include hs hbuf ht

theorem flush_completes {as : List BusAnswer} (hp : s.nextPin = (.ok, t)) (hb : t.buses = .ok :: as) :
    CompletesIn 1 .flush s ((t.flushed as).setResult .unit) := by
  refine ⟨_, exec_flush_of_pending hs hbuf, ?_, ht.2, ht.1⟩
  rw [runCall_flushThen_ok 0 ht.1 hp hb, runActs, State.ret_setPhase,
    State.ret_of_idle (s := t.flushed as) ht.2, runCall]

theorem flush_fails {as : List BusAnswer} {e : EnvError} {n : Nat} (hp : s.nextPin = (.ok, t))
    (hb : t.buses = .err e n :: as) : CompletesIn 1 .flush s (t.flushFailed as e n) :=
  ⟨_, exec_flush_of_pending hs hbuf, runCall_flushThen_bus_err 0 ht.1 hp hb, rfl, nofun⟩

/-- A FLUSH whose PinSet fails ends at once (60_exceptions.md R610). -/
theorem exec_flush_pin_err {e : EnvError} (hp : s.nextPin = (.err e, t)) :
    exec .flush s = .next
      { t with
        dc := .unknown, life := .indeterminate, result := .err (.pin e)
        trace := t.trace ++ [.pin .dc .low (.err e), .resp (.err (.pin e))] } := by
  rw [exec_flush_of_pending hs hbuf, flushThen_pin_err hp, List.append_cons t.trace, ht.2]
  rfl

end

/-- Settles O16: with a listed or a free PinSet answer alike, FLUSH does what the answers say. -/
theorem flushTransmitsTheWholeBufferOrKeepsIt : Obligations.FlushTransmitsTheWholeBufferOrKeepsIt := by
  intro s e n ps as hs
  refine ⟨exec_flush_of_empty hs, fun hbuf hp hb => ?_, fun hbuf hp => ?_, fun hbuf hp hb => ?_,
    fun hbuf hp hb => ?_⟩
  · exact flush_completes hs hbuf (t := s.setPins ps) hs (nextPin_listed hp) hb
  · exact exec_flush_pin_err hs hbuf (t := s.setPins ps) hs (nextPin_listed hp)
  · have h := flush_fails hs hbuf (t := s.setPins ps) hs (nextPin_listed hp) hb
    rwa [State.flushFailed, ← show (s.setPins ps).phase = .idle from hs.2] at h
  · have hfree := nextPin_free hp
    cases ha : Config.freePin s.pinDraw with
    | ok => exact flush_completes hs hbuf (t := s.setPinDraw (s.pinDraw + 1)) hs (ha ▸ hfree) hb
    | err e' => exact exec_flush_pin_err hs hbuf (t := s.setPinDraw (s.pinDraw + 1)) hs (ha ▸ hfree)

/-! ## APPEND_BATCHED -/

section
variable {op : Instr} {k : List Act} {c : Command} {s : State} {b : List Byte} (hb : enc s.par c = .ok b)
include hb

theorem runActs_append_fits (h : s.buf.length + b.length ≤ s.par.cap) :
    runActs op (.append c :: k) s = runActs op k (s.setBuf (s.buf ++ b)) := by
  simp only [runActs, tryAppend_fits hb h]

theorem runActs_append_full (h : ¬ s.buf.length + b.length ≤ s.par.cap) (hbuf : s.buf ≠ []) :
    runActs op (.append c :: k) s = flushThen op (.retry c :: k) s := by
  simp only [runActs, tryAppend_full hb h, if_neg hbuf]

theorem runActs_retry_of_empty (h : b.length ≤ s.par.cap) (hbuf : s.buf = []) :
    runActs op (.retry c :: k) s = runActs op k (s.setBuf b) := by
  have hfit : s.buf.length + b.length ≤ s.par.cap := by simpa [hbuf] using h
  simp only [runActs, tryAppend_fits hb hfit, hbuf, List.nil_append]

/-- APPEND_BATCHED of a command that does not fit: one FLUSH, answered Ok, then the command alone in the buffer
(41_command_encoder.md R404). -/
theorem runCall_append_full {ps : List PinAnswer} {as : List BusAnswer} (n : Nat) (hl : s.life ≠ .faulted)
    (hfull : ¬ s.buf.length + b.length ≤ s.par.cap) (hcap : b.length ≤ s.par.cap) (hpins : s.pins = .ok :: ps)
    (hbuses : s.buses = .ok :: as) :
    runCall (n + 1) (runActs op (.append c :: k) s) =
      runCall n (runActs op k
        ((((s.setPins ps).flushed as).setPhase (.busy op .flush (.retry c :: k))).setBuf b)) := by
  have hbuf : s.buf ≠ [] := by
    intro h
    exact hfull (by simpa [h] using hcap)
  rw [runActs_append_full hb hfull hbuf,
    runCall_flushThen_ok (t := s.setPins ps) n hl (nextPin_listed hpins) hbuses]
  exact congrArg _ (runActs_retry_of_empty hb hcap rfl)

end

/-- Settles O17, from the two ways of an append. -/
theorem appendBatchedFlushesAtMostOnce : Obligations.AppendBatchedFlushesAtMostOnce := by
  intro c b s ps as hs hb
  have hexec : exec (.appendBatched c) s = .next (runActs (.appendBatched c) [.append c, .ret] s) :=
    accept_of_accepts hs _
  refine ⟨fun hfit => ?_, fun hfull hcap hpins hbuses => ⟨_, hexec, ?_, hs.2, hs.1⟩⟩
  · rw [hexec, runActs_append_fits hb hfit, runActs, State.ret_of_idle (s := s.setBuf (s.buf ++ b)) hs.2]
    rfl
  · rw [runCall_append_full hb 0 hs.1 (not_le.2 hfull) hcap hpins hbuses, runCall, runActs]
    exact congrArg _ (State.ret_of_idle (s := ((s.setPins ps).flushed as).setBuf b) hs.2 .unit)

/-! ## The greedy cut -/

theorem segments_of_pending (cap : Nat) {pending : List Byte} (h : pending ≠ []) :
    segments cap pending [] = [pending] := by
  cases pending with
  | nil => exact absurd rfl h
  | cons => rfl

theorem segments_flatten (cap : Nat) (pending : List Byte) (es : List (List Byte)) :
    (segments cap pending es).flatten = pending ++ es.flatten := by
  induction es generalizing pending with
  | nil => cases pending <;> simp
  | cons e es ih =>
    by_cases h : pending.length + e.length ≤ cap
    · simp [segments_fits es h, ih]
    · simp [segments_full es h, ih]

/-- Encodings that each fit an empty buffer are cut into segments that do. -/
theorem segments_within {cap : Nat} {pending : List Byte} {es : List (List Byte)}
    (hes : ∀ e ∈ es, e ≠ [] ∧ e.length ≤ cap) (hpending : pending.length ≤ cap) :
    ∀ seg ∈ segments cap pending es, seg ≠ [] ∧ seg.length ≤ cap := by
  induction es generalizing pending with
  | nil => cases pending <;> simp_all
  | cons e es ih =>
    obtain ⟨⟨hne, hlen⟩, hes⟩ := List.forall_mem_cons.1 hes
    by_cases h : pending.length + e.length ≤ cap
    · rw [segments_fits es h]
      exact ih hes (by simpa using h)
    · rw [segments_full es h, List.forall_mem_cons]
      refine ⟨⟨?_, hpending⟩, ih hes hlen⟩
      rintro rfl
      exact h (by simpa using hlen)

theorem enc_length_le {p : Params} {c : Command} {b : List Byte} (hcap : 11 ≤ p.cap) (h : enc p c = .ok b) :
    b.length ≤ p.cap :=
  enc_length h ▸ c.len_le.trans hcap

/-- Settles O20: an encoding is not empty and fits an empty buffer, so the cut's segments are within the capacity. -/
theorem greedyCutIsExactAndWithinCapacity : Obligations.GreedyCutIsExactAndWithinCapacity := by
  intro p cmds es pending hcap hpending hes
  refine ⟨segments_flatten .., segments_within (fun e he => ?_) hpending⟩
  obtain ⟨c, hc⟩ := enc_of_mem_encAll hes he
  exact ⟨enc_ne_nil hc, enc_length_le hcap hc⟩

/-! ## BATCH -/

/-- The state after the transfers of these segments, each answered Ok, has emptied the buffer; `ps` and `as` are the
answers still to come (41_command_encoder.md R406). -/
def State.transmitted (s : State) (segs : List (List Byte)) (ps : List PinAnswer) (as : List BusAnswer) : State :=
  { s with
    pins := ps, buses := as, buf := [], dc := if segs = [] then s.dc else .low
    trace := s.trace ++ segmentEvents segs, wire := s.wire ++ wireOf .low segs.flatten }

theorem State.transmitted_nil {s : State} (h : s.buf = []) : s.transmitted [] s.pins s.buses = s := by
  cases s
  cases h
  simp [State.transmitted, segmentEvents, wireOf]

theorem State.transmitted_singleton (s : State) (ps : List PinAnswer) (as : List BusAnswer) :
    s.transmitted [s.buf] ps as = (s.setPins ps).flushed as := by
  simp [State.transmitted, State.flushed, State.setPins, segmentEvents]

/-- The first segment is what the buffer held; the rest follows from whatever was put into the buffer then. -/
theorem State.transmitted_cons (s : State) (b : List Byte) (segs : List (List Byte)) (ps ps' : List PinAnswer)
    (as as' : List BusAnswer) :
    (((s.setPins ps').flushed as').setBuf b).transmitted segs ps as = s.transmitted (s.buf :: segs) ps as := by
  simp [State.transmitted, State.flushed, State.setPins, State.setBuf, segmentEvents, wireOf]

/-- BATCH's lines inside any operation, every primitive answered Ok: one step for each segment of the greedy cut, and
then what follows runs on the state after the transfers, in the phase the last step left (41_command_encoder.md R406,
R407). -/
theorem runCall_batchActs (op : Instr) (k : List Act) (n : Nat) {cmds : List Command} {es : List (List Byte)}
    {s : State} {ps : List PinAnswer} {as : List BusAnswer} (hl : s.life ≠ .faulted) (hcap : 11 ≤ s.par.cap)
    (hes : encAll s.par cmds = .ok es)
    (hpins : s.pins = List.replicate (segments s.par.cap s.buf es).length .ok ++ ps)
    (hbuses : s.buses = List.replicate (segments s.par.cap s.buf es).length .ok ++ as) :
    ∃ ph, runCall ((segments s.par.cap s.buf es).length + n) (runActs op (batchActs cmds ++ k) s) =
      runCall n (runActs op k ((s.transmitted (segments s.par.cap s.buf es) ps as).setPhase ph)) := by
  induction cmds generalizing es s with
  | nil =>
    cases hes
    change ∃ ph, runCall _ (runActs op (.flush :: k) s) = _
    by_cases hbuf : s.buf = []
    · obtain rfl : s.pins = ps := by simpa [hbuf] using hpins
      obtain rfl : s.buses = as := by simpa [hbuf] using hbuses
      refine ⟨s.phase, ?_⟩
      rw [hbuf, segments_nil_nil, State.transmitted_nil hbuf, runActs, if_pos hbuf, List.length_nil, Nat.zero_add]
      rfl
    · rw [segments_of_pending _ hbuf] at hpins hbuses ⊢
      change s.pins = .ok :: ps at hpins
      change s.buses = .ok :: as at hbuses
      refine ⟨.busy op .flush k, ?_⟩
      rw [runActs, if_neg hbuf, List.length_singleton, Nat.add_comm, State.transmitted_singleton,
        runCall_flushThen_ok (t := s.setPins ps) n hl (nextPin_listed hpins) hbuses]
  | cons c cs ih =>
    obtain ⟨b, bs, hb, hbs, rfl⟩ := encAll_cons_ok.1 hes
    change ∃ ph, runCall _ (runActs op (.append c :: (batchActs cs ++ k)) s) = _
    by_cases hfit : s.buf.length + b.length ≤ s.par.cap
    · rw [segments_fits bs hfit] at hpins hbuses ⊢
      rw [runActs_append_fits hb hfit]
      exact ih (s := s.setBuf (s.buf ++ b)) hl hcap hbs hpins hbuses
    · rw [segments_full bs hfit] at hpins hbuses ⊢
      let ps' := List.replicate (segments s.par.cap b bs).length .ok ++ ps
      let as' := List.replicate (segments s.par.cap b bs).length .ok ++ as
      let busy := Phase.busy op .flush (.retry c :: (batchActs cs ++ k))
      obtain ⟨ph, h⟩ := ih (s := (((s.setPins ps').flushed as').setPhase busy).setBuf b) hl hcap hbs rfl rfl
      refine ⟨ph, ?_⟩
      rw [List.length_cons, Nat.add_right_comm,
        runCall_append_full hb _ hl hfit (enc_length_le hcap hb) hpins hbuses,
        ← State.transmitted_cons s b _ ps ps' as as']
      exact h

/-- Settles O19: BATCH is its lines and a return. -/
theorem batchIsCutGreedily : Obligations.BatchIsCutGreedily := by
  intro cmds es s ps as hs hcap hes segs hpins hbuses
  obtain ⟨ph, hrun⟩ := runCall_batchActs (.batch cmds) [.ret] 0 hs.1 hcap hes hpins hbuses
  refine ⟨_, accept_of_accepts hs _, ?_, hs.2, hs.1⟩
  rw [← segments_flatten s.par.cap]
  refine hrun.trans (congrArg _ ?_)
  rw [runActs, State.ret_setPhase]
  exact State.ret_of_idle (s := s.transmitted segs ps as) hs.2 .unit

/-! ## SEND -/

/-- Settles O21: SEND checks every command before its first line. -/
theorem sendFaultsBeforeAnyEvent : Obligations.SendFaultsBeforeAnyEvent := by
  intro pre post c es f s hs hpre hc
  simp only [exec, execSend, accept_of_accepts hs, encAll_error hpre hc, State.raise_eq_faultedBy]

/-- The lifecycle after a SEND of these commands is Indeterminate when one of them bypasses the cache
(41_command_encoder.md R442). -/
def Life.afterSend (l : Life) (cmds : List Command) : Life :=
  if cmds.any Command.bypassesCache then .indeterminate else l

theorem Life.afterSend_ne_faulted {l : Life} (h : l ≠ .faulted) (cmds : List Command) :
    l.afterSend cmds ≠ .faulted := by
  unfold Life.afterSend
  split
  · nofun
  · exact h

/-- SEND's lines are BATCH's, and then the lifecycle's mark and the answer. -/
theorem sendActs_eq (cmds : List Command) :
    ∃ k, sendActs cmds = batchActs cmds ++ k ∧
      ∀ op s, runActs op k s = (s.setLife (s.life.afterSend cmds)).respond := by
  refine ⟨_, List.append_assoc .., fun op s => ?_⟩
  unfold Life.afterSend
  split <;> rfl

theorem send_completes {cmds : List Command} {es : List (List Byte)} {s : State} {ps : List PinAnswer}
    {as : List BusAnswer} (hs : Accepts s) (hcap : 11 ≤ s.par.cap) (hes : encAll s.par cmds = .ok es)
    (hpins : s.pins = List.replicate (segments s.par.cap s.buf es).length .ok ++ ps)
    (hbuses : s.buses = List.replicate (segments s.par.cap s.buf es).length .ok ++ as) :
    CompletesIn (segments s.par.cap s.buf es).length (.send cmds) s
      ((((s.transmitted (segments s.par.cap s.buf es) ps as).setLife (s.life.afterSend cmds)).emit
        (.resp .ok)).setResult .unit) := by
  obtain ⟨k, hacts, hk⟩ := sendActs_eq cmds
  obtain ⟨ph, hrun⟩ := runCall_batchActs (.send cmds) k 0 hs.1 hcap hes hpins hbuses
  refine ⟨runActs (.send cmds) (sendActs cmds) s, ?_, ?_, hs.2, Life.afterSend_ne_faulted hs.1 cmds⟩
  · simp only [exec, execSend, accept_of_accepts hs, hes]
  · rw [hacts]
    refine hrun.trans (congrArg _ ?_)
    rw [hk]
    exact State.ret_of_idle (s := ((s.transmitted _ ps as).setLife _).emit (.resp .ok)) hs.2 .unit

/-- Settles O22: SEND is a BATCH, the lifecycle's mark and the answer. -/
theorem sendBatchesAndKeepsTheCache : Obligations.SendBatchesAndKeepsTheCache := by
  intro cmds es s ps as hs hcap hes segs hpins hbuses
  rw [← segments_flatten s.par.cap, List.any_congr rfl (q := Command.bypassesCache)]
  · exact send_completes hs hcap hes hpins hbuses
  · rintro ⟨⟩ <;> rfl

end Machine
end Sys2Proof
end
section
/-! PROOFS of the family 42_coordinate_mapper.md: TO_RAM, the logical size and the bounds. -/

namespace Sys2Proof

/-! ## The two pixel orders -/

section
variable {cfg : OrientationConfig}

theorem toRam_of_rowMajor (h : cfg.order = .rowMajor) (r : Rect) : toRam r cfg = r := by
  simp only [toRam, h]

theorem toRam_of_columnMajor (h : cfg.order = .columnMajor) (r : Rect) :
    toRam r cfg = ⟨r.y, r.x, r.h, r.w⟩ := by
  simp only [toRam, h]

theorem logicalSize_of_rowMajor (h : cfg.order = .rowMajor) (p : Params) :
    logicalSize p cfg = (p.panelW, p.panelH) := by
  simp only [logicalSize, h]

theorem logicalSize_of_columnMajor (h : cfg.order = .columnMajor) (p : Params) :
    logicalSize p cfg = (p.panelH, p.panelW) := by
  simp only [logicalSize, h]

theorem toRam_toRam (r : Rect) : toRam (toRam r cfg) cfg = r := by
  cases h : cfg.order with
  | rowMajor => simp only [toRam_of_rowMajor h]
  | columnMajor => simp only [toRam_of_columnMajor h]

theorem toRam_congr {cfg' : OrientationConfig} (h : cfg.order = cfg'.order) (r : Rect) :
    toRam r cfg = toRam r cfg' := by
  simp only [toRam, h]

/-- Settles O25, from the two cases of TO_RAM. -/
theorem toRamIsAnInvolutionOfThePixelOrder : Obligations.ToRamIsAnInvolutionOfThePixelOrder :=
  fun r _ _ => ⟨toRam_toRam r, fun h => toRam_congr h r⟩

/-! ## The bounds -/

theorem Rect.within_iff {r : Rect} {w h : Nat} : r.within w h = true ↔
    0 < r.w ∧ 0 < r.h ∧ 0 ≤ r.x ∧ 0 ≤ r.y ∧ r.x + r.w ≤ w ∧ r.y + r.h ≤ h := by
  simp only [Rect.within, Bool.and_eq_true, decide_eq_true_eq, and_assoc]

/-- The transpose of a rectangle fits the transposed bounds. -/
theorem Rect.within_transpose (r : Rect) (w h : Nat) :
    Rect.within ⟨r.y, r.x, r.h, r.w⟩ w h = r.within h w := by
  rw [Bool.eq_iff_iff, within_iff, within_iff]
  tauto

/-- A rectangle is in the logical bounds as its image is in the panel: `inPanel_toRam` and its converse. -/
theorem inLogical_eq_inPanel_toRam (p : Params) (r : Rect) : inLogical p r cfg = inPanel p (toRam r cfg) := by
  unfold inLogical inPanel
  cases h : cfg.order with
  | rowMajor => rw [toRam_of_rowMajor h, logicalSize_of_rowMajor h]
  | columnMajor => rw [toRam_of_columnMajor h, logicalSize_of_columnMajor h, Rect.within_transpose]

theorem toRam_w_mul_h (r : Rect) : (toRam r cfg).w * (toRam r cfg).h = r.w * r.h := by
  cases h : cfg.order with
  | rowMajor => rw [toRam_of_rowMajor h]
  | columnMajor => rw [toRam_of_columnMajor h, Nat.mul_comm]

end

/-- Settles O26: the logical bounds are the panel's, transposed together with the rectangle. -/
theorem inLogicalExactlyWhenImageInPanel : Obligations.InLogicalExactlyWhenImageInPanel := by
  intro p r cfg q
  rw [inLogical_eq_inPanel_toRam]
  exact ⟨Rect.within_iff, toRam_w_mul_h r⟩

/-! ## The mapper's calls -/

namespace Machine

/-- A call that only returns a value changes the returned value alone, and records no event. -/
theorem exec_of_accept_ret {i : Instr} {s : State} {v : State → Result} (hs : Accepts s)
    (h : exec i s = accept s fun s => s.ret (v s)) : exec i s = .next (s.setResult (v s)) := by
  rw [h, accept_of_accepts hs, State.ret_of_idle hs.2]

section
variable {s : State} (hs : Accepts s)
include hs

theorem exec_toRam (r : Rect) (cfg : OrientationConfig) :
    exec (.toRam r cfg) s = .next (s.setResult (.rect (toRam r cfg))) :=
  exec_of_accept_ret (v := fun _ => .rect (toRam r cfg)) hs rfl

theorem exec_logicalSize {cfg : OrientationConfig} {w h : Nat} (hsize : logicalSize s.par cfg = (w, h)) :
    exec (.logicalSize cfg) s = .next (s.setResult (.size w h)) := by
  have := exec_of_accept_ret (i := .logicalSize cfg)
    (v := fun s => .size (logicalSize s.par cfg).1 (logicalSize s.par cfg).2) hs rfl
  rwa [hsize] at this

end

/-- SIZE is LOGICAL_SIZE of the instance's own configuration (42_coordinate_mapper.md R455). -/
theorem exec_size (s : State) : exec .size s = exec (.logicalSize s.cfg) s := by
  simp only [exec, execSize, execLogicalSize]
  exact accept_congr rfl

/-- Settles O23: the call returns TO_RAM's value, which each order gives. -/
theorem toRamIsIdentityOrTranspose : Obligations.ToRamIsIdentityOrTranspose := by
  intro r cfg s hs
  rw [exec_toRam hs]
  exact ⟨fun h => by rw [toRam_of_rowMajor h], fun h => by rw [toRam_of_columnMajor h]⟩

/-- Settles O24: both calls return the logical size, which each order gives. -/
theorem sizeIsSwappedWhenColumnMajor : Obligations.SizeIsSwappedWhenColumnMajor := by
  intro cfg s hs
  have row {c : OrientationConfig} (h : c.order = .rowMajor) := exec_logicalSize hs (logicalSize_of_rowMajor h s.par)
  have column {c : OrientationConfig} (h : c.order = .columnMajor) :=
    exec_logicalSize hs (logicalSize_of_columnMajor h s.par)
  rw [exec_size]
  exact ⟨row, column, row, column⟩

end Machine
end Sys2Proof
end
section
/-! PROOFS of the family 43_driver.md: INIT, WRITE, and the cache against what was sent. -/

namespace Sys2Proof.Machine

/-! ## Other answers to come

What a run leaves does not depend on the answers it did not take: with those it took put first, it is the same run. -/

/-- Whatever answers are to come after it, some PinSet answers before them make `f` do what it did. -/
def Replays (f : State → State) : Prop :=
  ∀ s ps d bs ds, ∃ ps', f (s.answered ps' d bs ds) = (f s).answered ps d bs ds

theorem pinSet_answered (p : Pin) (lvl : Level) (s : State) (ps : List PinAnswer) (d : Nat) (bs : List BusAnswer)
    (ds : List DelayAnswer) :
    pinSet p lvl (s.answered (s.nextPin.1 :: ps) d bs ds) =
      ((pinSet p lvl s).1, (pinSet p lvl s).2.answered ps d bs ds) := by
  have hn : (s.answered (s.nextPin.1 :: ps) d bs ds).nextPin = (s.nextPin.1, s.nextPin.2.answered ps d bs ds) := by
    unfold State.nextPin
    cases s.pins <;> rfl
  unfold pinSet
  rw [hn]
  rcases s.nextPin with ⟨a | e, t⟩ <;> cases p <;> rfl

theorem afterPin_replays {f : State → State} (hf : Replays f) (p : Pin) (lvl : Level) :
    Replays fun s => afterPin f (pinSet p lvl s) := by
  intro s ps d bs ds
  rcases hk : pinSet p lvl s with ⟨_ | e, t⟩
  · obtain ⟨ps', h⟩ := hf t ps d bs ds
    exact ⟨s.nextPin.1 :: ps', by simp only [pinSet_answered, hk]; exact h⟩
  · exact ⟨s.nextPin.1 :: ps, by simp only [pinSet_answered, hk]; rfl⟩

theorem suspend_replays (op : Instr) (pt : AwaitPoint) (k : List Act) : Replays (·.suspend op pt k) :=
  fun _ ps _ _ _ => ⟨ps, rfl⟩

theorem flushThen_replays (op : Instr) (k : List Act) : Replays (flushThen op k) :=
  funext (flushThen_eq op k) ▸ afterPin_replays (suspend_replays op .flush k) .dc .low

theorem dataThen_replays (op : Instr) (data : List Byte) (k : List Act) : Replays (dataThen op data k) :=
  funext (dataThen_eq op data k) ▸ afterPin_replays (suspend_replays op (.data data) k) .dc .high

theorem resetCache_answered (s : State) (ps : List PinAnswer) (d : Nat) (bs : List BusAnswer)
    (ds : List DelayAnswer) : (s.answered ps d bs ds).resetCache = s.resetCache.answered ps d bs ds := by
  unfold State.resetCache
  cases h : s.par.initClearsBuffer <;> simp [State.answered, h] <;> rfl

theorem tryAppend_answered (c : Command) (s : State) (ps : List PinAnswer) (d : Nat) (bs : List BusAnswer)
    (ds : List DelayAnswer) :
    tryAppend c (s.answered ps d bs ds) = (tryAppend c s).map fun r => (r.1, r.2.answered ps d bs ds) := by
  cases hb : enc s.par c with
  | error f => rw [tryAppend_fatal hb, tryAppend_fatal (s := s.answered ps d bs ds) hb]; rfl
  | ok b =>
    by_cases hfit : s.buf.length + b.length ≤ s.par.cap
    · rw [tryAppend_fits hb hfit, tryAppend_fits (s := s.answered ps d bs ds) hb hfit]; rfl
    · rw [tryAppend_full hb hfit, tryAppend_full (s := s.answered ps d bs ds) hb hfit]; rfl

theorem runActs_replays (op : Instr) (k : List Act) : Replays (runActs op k) := by
  induction k with
  | nil => exact fun _ ps _ _ _ => ⟨ps, rfl⟩
  | cons a k ih =>
    intro s ps d bs ds
    cases a with
    | setLife l => exact ih (s.setLife l) ps d bs ds
    | pin p lvl =>
      simp only [runActs_pin]
      exact afterPin_replays ih p lvl s ps d bs ds
    | delay ms => exact ⟨ps, rfl⟩
    | resetCache =>
      simp only [runActs, resetCache_answered]
      exact ih s.resetCache ps d bs ds
    | append c =>
      simp only [runActs, tryAppend_answered]
      rcases tryAppend c s with f | ⟨_ | _, t⟩
      · exact ⟨ps, rfl⟩
      · by_cases hb : t.buf = []
        · exact ⟨ps, by simp [Except.map, State.answered, hb]; rfl⟩
        · simpa [Except.map, State.answered, hb] using flushThen_replays op (.retry c :: k) t ps d bs ds
      · exact ih t ps d bs ds
    | retry c =>
      simp only [runActs, tryAppend_answered]
      rcases tryAppend c s with f | ⟨_ | _, t⟩
      · exact ⟨ps, rfl⟩
      · exact ⟨ps, rfl⟩
      · exact ih t ps d bs ds
    | flush =>
      by_cases hb : s.buf = []
      · simpa [runActs, State.answered, hb] using ih s ps d bs ds
      · simpa [runActs, State.answered, hb] using flushThen_replays op k s ps d bs ds
    | setDepth v => exact ih (s.setDepth v) ps d bs ds
    | setAddr q => exact ih (s.setAddr q) ps d bs ds
    | dataPhase data => exact dataThen_replays op data k s ps d bs ds
    | respond => exact ⟨ps, rfl⟩
    | ret => exact ⟨ps, rfl⟩

/-- The step that resumes a suspended operation, with other answers after the ones it takes. -/
theorem resume_answered {op : Instr} {pt : AwaitPoint} {k : List Act} {s t : State}
    (h : resume op pt k s = .next t) (ps : List PinAnswer) (d : Nat) (bs : List BusAnswer) (ds : List DelayAnswer) :
    ∃ ps' bs' ds', resume op pt k (s.answered ps' d bs' ds') = .next (t.answered ps d bs ds) := by
  have bus : ∀ bytes (done : State → State), Replays done → answerBus bytes done s = .next t →
      ∃ ps' bs' ds', answerBus bytes done (s.answered ps' d bs' ds') = .next (t.answered ps d bs ds) := by
    intro bytes done hd hb
    obtain ⟨as, ⟨-, rfl⟩ | ⟨e, n, -, rfl⟩ | ⟨n, -, rfl⟩⟩ := answerBus_next hb
    · obtain ⟨ps', h'⟩ := hd ((s.setBuses as).busDone bytes) ps d bs ds
      exact ⟨ps', .ok :: bs, ds, congrArg _ h'⟩
    · exact ⟨ps, .err e n :: bs, ds, rfl⟩
    · exact ⟨ps, .cancel n :: bs, ds, rfl⟩
  cases pt with
  | delay ms =>
    obtain ⟨as, ⟨-, rfl⟩ | ⟨-, rfl⟩⟩ := answerDelay_next h
    · obtain ⟨ps', h'⟩ := runActs_replays op k ((s.setDelays as).emit (.delay ms)) ps d bs ds
      exact ⟨ps', bs, .elapsed :: ds, congrArg _ h'⟩
    · exact ⟨ps, bs, .cancel :: ds, rfl⟩
  | flush => exact bus s.buf (fun u => runActs op k (u.setBuf [])) (fun u => runActs_replays op k (u.setBuf [])) h
  | data bytes => exact bus bytes _ (runActs_replays op k) h

/-- A step of a suspended operation stays within what its coherence says. -/
theorem Coherent.resume {op : Instr} {pt : AwaitPoint} {k : List Act} {s t : State} (h : Coherent s)
    (hl : s.life ≠ .faulted) (hp : s.phase = .busy op pt k) (ht : resume op pt k s = .next t) : Coherent t := by
  intro n ps d bs ds u hrun
  obtain ⟨ps', bs', ds', ht'⟩ := resume_answered ht ps d bs ds
  refine h (n + 1) ps' d bs' ds' u ?_
  rwa [runCall_busy (s := s.answered ps' d bs' ds') n hp ((step_busy (s := s.answered ps' d bs' ds') hl hp).trans ht')]

/-! ## How a call may end -/

/-- However the call under way goes on, it ends in `Q` if it ends. -/
def Ends (Q : State → Prop) (s : State) : Prop := ∀ n t, runCall n s = .next t → t.Final → Q t

/-- Where a call ends with the block Ready, the cache holds what was last sent. -/
def CacheAgrees (t : State) : Prop := t.life = .ready → Synced t

theorem coherent_iff_ends {s : State} :
    Coherent s ↔ ∀ ps d bs ds, Ends CacheAgrees (s.answered ps d bs ds) :=
  ⟨fun h ps d bs ds n t => h n ps d bs ds t, fun h n ps d bs ds t => h ps d bs ds n t⟩

section
variable {Q : State → Prop} {s : State}

theorem ends_of_idle (hp : s.phase = .idle) (h : s.life ≠ .faulted → Q s) : Ends Q s := by
  intro n t ht hf
  by_cases hl : s.life = .faulted
  · cases n with
    | zero => cases ht; exact absurd hl hf.2
    | succ n => rw [runCall_faulted n hl] at ht; cases ht
  · rw [runCall_final n ⟨hp, hl⟩] at ht
    cases ht
    exact h hl

theorem ends_raise (f : Fatal) : Ends Q (s.raise f) := by
  intro n t ht hf
  cases n with
  | zero => cases ht; exact absurd rfl hf.2
  | succ n => rw [runCall_faulted n rfl] at ht; cases ht

theorem ends_suspend {op : Instr} {pt : AwaitPoint} {k : List Act}
    (h : ∀ t, resume op pt k (s.suspend op pt k) = .next t → Ends Q t) : Ends Q (s.suspend op pt k) := by
  intro n u hu hf
  cases n with
  | zero => cases hu; cases hf.1
  | succ n =>
    rw [runCall_suspended n (by simp [State.suspend])] at hu
    cases hstep : step (s.suspend op pt k) with
    | next t =>
      obtain ⟨-, ⟨_, _, _, hp, hr⟩ | ⟨_, _, _, _, hp, -⟩⟩ := step_next hstep <;> cases hp
      rw [hstep] at hu
      exact h t hr n u hu hf
    | fault r => rw [hstep] at hu; cases hu
    | refused r => rw [hstep] at hu; cases hu

end

/-! ### What the commands of a call change -/

/-- What of a state a call's commands change or go by: the registers, the bytes delivered, and, as `sent`, the bytes of
the completed command transfers since INIT's last delay. -/
structure View where
  par : Params
  cfg : OrientationConfig
  depth : BitDepth
  addr : Rect
  buf : List Byte
  rst : Line
  life : Life
  wire : List WireByte
  sent : List Byte

def State.view (s : State) : View where
  par := s.par
  cfg := s.cfg
  depth := s.depth
  addr := s.addr
  buf := s.buf
  rst := s.rst
  life := s.life
  wire := s.wire
  sent := (sinceInit s.trace).flatMap Event.lowBytes

/-- A FLUSH that completed (41_command_encoder.md R403). -/
def View.flushed (v : View) : View :=
  { v with buf := [], wire := v.wire ++ wireOf .low v.buf, sent := v.sent ++ v.buf }

theorem View.flushed_of_empty {v : View} (h : v.buf = []) : v.flushed = v := by
  cases v
  cases h
  simp [View.flushed, wireOf]

/-- APPEND_BATCHED of the encoding `b`: with or without a FLUSH before (41_command_encoder.md R404). -/
def View.Appended (b : List Byte) (v v' : View) : Prop :=
  v' = { v with buf := v.buf ++ b } ∨ v' = { v.flushed with buf := b }

section
variable {b : List Byte} {v v' : View} (h : v.Appended b v')
include h

theorem View.Appended.par : v'.par = v.par := by obtain rfl | rfl := h <;> rfl
theorem View.Appended.cfg : v'.cfg = v.cfg := by obtain rfl | rfl := h <;> rfl
theorem View.Appended.depth : v'.depth = v.depth := by obtain rfl | rfl := h <;> rfl
theorem View.Appended.addr : v'.addr = v.addr := by obtain rfl | rfl := h <;> rfl
theorem View.Appended.rst : v'.rst = v.rst := by obtain rfl | rfl := h <;> rfl
theorem View.Appended.life : v'.life = v.life := by obtain rfl | rfl := h <;> rfl

/-- Flushed before or not, the command's bytes come next after those delivered and those that waited. -/
theorem View.Appended.wire :
    v'.wire ++ wireOf .low v'.buf = v.wire ++ wireOf .low v.buf ++ wireOf .low b := by
  obtain rfl | rfl := h <;> simp [View.flushed, wireOf]

end

theorem view_emit (s : State) (e : Event) :
    (s.emit e).view = { s.view with sent := if e.isDelay then [] else s.view.sent ++ e.lowBytes } := by
  unfold State.view
  rw [State.emit_trace, sinceInit_snoc]
  cases e.isDelay <;> simp

theorem view_emit_of_silent (s : State) {e : Event} (hd : e.isDelay = false) (hl : e.lowBytes = []) :
    (s.emit e).view = s.view := by
  simp [view_emit, hd, hl]

theorem pinSet_dc_view {lvl : Level} {s t : State} (h : pinSet .dc lvl s = (none, t)) :
    t.view = s.view ∧ t.dc = Level.line lvl := by
  refine ⟨?_, pinSet_dc_line h⟩
  obtain ⟨ps, n, hk | ⟨e, hk⟩⟩ := pinSet_shape .dc lvl s <;> rw [hk] at h <;> cases h
  exact view_emit_of_silent _ rfl rfl

theorem pinSet_rst_view {lvl : Level} {s t : State} (h : pinSet .rst lvl s = (none, t)) :
    t.view = { s.view with rst := Level.line lvl } := by
  obtain ⟨ps, n, hk | ⟨e, hk⟩⟩ := pinSet_shape .rst lvl s <;> rw [hk] at h <;> cases h
  exact view_emit_of_silent _ rfl rfl

theorem busDone_view_low {s : State} (h : s.dc = .low) (bs : List Byte) :
    (s.busDone bs).view = { s.view with wire := s.wire ++ wireOf .low bs, sent := s.view.sent ++ bs } := by
  simp [State.busDone, State.view, h, sinceInit_snoc, Event.isDelay, Event.lowBytes, wireOf]

theorem busDone_view_high {s : State} (h : s.dc = .high) (bs : List Byte) :
    (s.busDone bs).view = { s.view with wire := s.wire ++ wireOf .high bs } := by
  simp [State.busDone, State.view, h, sinceInit_snoc, Event.isDelay, Event.lowBytes, wireOf]

/-! ### Pseudocode that ends in `Q`

A rule for each line: what the rest of the pseudocode leads to, this line and the rest lead to. -/

/-- Whatever state with the registers `v` it runs in, the pseudocode ends in `Q` if it ends. -/
def Leads (Q : State → Prop) (op : Instr) (k : List Act) (v : View) : Prop :=
  ∀ s : State, s.view = v → Ends Q (runActs op k s)

/-- `Q` holds wherever a primitive's error or a cancellation ends a call (60_exceptions.md R610, R630). -/
def HoldsOfFailures (Q : State → Prop) : Prop := ∀ t : State, t.life = .indeterminate → t.result ≠ .unit → Q t

section
variable {Q : State → Prop} {op : Instr} {k : List Act} {s : State} {v : View}

theorem Leads.retry {c : Command} (h : ∀ b, enc v.par c = .ok b → Leads Q op k { v with buf := v.buf ++ b }) :
    Leads Q op (.retry c :: k) v := by
  rintro s rfl
  rw [runActs]
  split
  · exact ends_raise _
  · obtain ⟨b, hb, ⟨-, -, rfl⟩ | ⟨hf, -⟩⟩ := tryAppend_cases ‹_›
    · exact h b hb _ rfl
    · cases hf
  · exact ends_raise _

section
variable (hQ : HoldsOfFailures Q)
include hQ

theorem ends_fail (e : IoError) : Ends Q (s.fail e) := ends_of_idle rfl fun _ => hQ _ rfl nofun

theorem ends_cancelled : Ends Q s.cancelled := ends_of_idle rfl fun _ => hQ _ rfl nofun

theorem ends_afterPin {p : Pin} {lvl : Level} {f : State → State}
    (h : ∀ t, pinSet p lvl s = (none, t) → Ends Q (f t)) :
    Ends Q (afterPin f (pinSet p lvl s)) := by
  rcases hk : pinSet p lvl s with ⟨_ | e, t⟩
  · exact h t hk
  · exact ends_fail hQ _

theorem ends_answerBus {bytes : List Byte} {done : State → State} {t : State}
    (h : ∀ as, Ends Q (done ((s.setBuses as).busDone bytes))) (ht : answerBus bytes done s = .next t) : Ends Q t := by
  obtain ⟨as, ⟨-, rfl⟩ | ⟨e, n, -, rfl⟩ | ⟨n, -, rfl⟩⟩ := answerBus_next ht
  · exact h as
  · exact ends_fail hQ _
  · exact ends_cancelled hQ

theorem ends_flushThen (h : Leads Q op k s.view.flushed) : Ends Q (flushThen op k s) := by
  rw [flushThen_eq]
  refine ends_afterPin hQ fun t ht => ends_suspend fun u hu => ?_
  obtain ⟨hview, hdc⟩ := pinSet_dc_view ht
  refine ends_answerBus hQ (done := fun u => runActs op k (u.setBuf [])) (fun as => h _ ?_) hu
  rw [← hview]
  exact congrArg (fun w : View => { w with buf := [] })
    (busDone_view_low (s := (t.suspend op .flush k).setBuses as) hdc t.buf)

theorem Leads.flush (h : Leads Q op k v.flushed) : Leads Q op (.flush :: k) v := by
  rintro s rfl
  rw [runActs]
  split
  · exact h s (View.flushed_of_empty ‹_›).symm
  · exact ends_flushThen hQ h

theorem Leads.append {c : Command} (h : ∀ b v', enc v.par c = .ok b → v.Appended b v' → Leads Q op k v') :
    Leads Q op (.append c :: k) v := by
  rintro s rfl
  rw [runActs]
  split
  · exact ends_raise _
  · obtain ⟨b, hb, ⟨-, -, rfl⟩ | ⟨hf, -⟩⟩ := tryAppend_cases ‹_›
    · exact h b _ hb (.inl rfl) _ rfl
    · cases hf
  · obtain ⟨b, -, ⟨hf, -⟩ | ⟨-, -, rfl⟩⟩ := tryAppend_cases ‹_›
    · cases hf
    · split
      · exact ends_raise _
      · exact ends_flushThen hQ (.retry fun b hb => h b _ hb (.inr rfl))

theorem Leads.pinRst {lvl : Level} (h : Leads Q op k { v with rst := Level.line lvl }) :
    Leads Q op (.pin .rst lvl :: k) v := by
  rintro s rfl
  rw [runActs_pin]
  exact ends_afterPin hQ fun t ht => h t (pinSet_rst_view ht)

theorem Leads.delay {ms : Nat} (h : Leads Q op k { v with sent := [] }) : Leads Q op (.delay ms :: k) v := by
  rintro s rfl
  refine ends_suspend fun u hu => ?_
  obtain ⟨ds, ⟨-, rfl⟩ | ⟨-, rfl⟩⟩ := answerDelay_next hu
  · exact h _ (view_emit _ _)
  · exact ends_cancelled hQ

/-- WRITE's data phase and its answer (43_driver.md R514). -/
theorem Leads.dataPhase {data : List Byte}
    (h : ∀ t : State, t.dc = .high → t.view = { v with wire := v.wire ++ wireOf .high data } → Q t.respond) :
    Leads Q op [.dataPhase data, .respond] v := by
  rintro s rfl
  rw [runActs, dataThen_eq]
  refine ends_afterPin hQ fun t ht => ends_suspend fun u hu => ?_
  obtain ⟨hview, hdc⟩ := pinSet_dc_view ht
  refine ends_answerBus hQ (fun as => ends_of_idle rfl fun _ => h _ hdc ?_) hu
  rw [← hview]
  exact busDone_view_high (s := (t.suspend op (.data data) [.respond]).setBuses as) hdc data

/-- BATCH's lines keep what every command's enqueue keeps (41_command_encoder.md R406). -/
theorem Leads.batchActs {P : View → Prop} {cmds : List Command}
    (hP : ∀ c ∈ cmds, ∀ v b v', P v → enc v.par c = .ok b → v.Appended b v' → P v')
    (h : ∀ v, P v → Leads Q op k v.flushed) (hv : P v) : Leads Q op (batchActs cmds ++ k) v := by
  induction cmds generalizing v with
  | nil => exact .flush hQ (h v hv)
  | cons c cs ih =>
    obtain ⟨hc, hcs⟩ := List.forall_mem_cons.1 hP
    exact .append hQ fun b v' hb hv' => ih hcs (hc v b v' hv hb hv')

end

theorem Leads.setLife {l : Life} (h : Leads Q op k { v with life := l }) : Leads Q op (.setLife l :: k) v := by
  rintro s rfl
  exact h (s.setLife l) rfl

theorem Leads.setDepth {d : BitDepth} (h : Leads Q op k { v with depth := d }) : Leads Q op (.setDepth d :: k) v := by
  rintro s rfl
  exact h (s.setDepth d) rfl

theorem Leads.setAddr {q : Rect} (h : Leads Q op k { v with addr := q }) : Leads Q op (.setAddr q :: k) v := by
  rintro s rfl
  exact h (s.setAddr q) rfl

theorem Leads.resetCache (h : ∀ b, Leads Q op k
    { v with depth := .sixteen, addr := ⟨0, 0, v.par.panelW, v.par.panelH⟩, buf := b }) :
    Leads Q op (.resetCache :: k) v := by
  rintro s rfl
  refine h s.resetCache.buf s.resetCache ?_
  unfold State.resetCache
  split <;> rfl

end

/-! ## The cache against what was sent (43_driver.md R520) -/

/-- The command bytes sent since INIT and those that wait are the encodings of two lists of commands. -/
def View.Carries (v : View) (sent pending : List Command) : Prop :=
  ∃ es fs, encAll v.par sent = .ok es ∧ v.sent = es.flatten ∧ encAll v.par pending = .ok fs ∧ v.buf = fs.flatten

/-- The cache holds what the controller will have been sent last once the pending commands are flushed. -/
def View.Tracks (v : View) (sent pending : List Command) : Prop :=
  v.Carries sent pending ∧ lastRemap v.cfg (sent ++ pending) = (v.cfg, v.depth) ∧
    lastWindow v.par (sent ++ pending) = v.addr

/-- The cache holds what was last sent, and what waits changes neither value. -/
def View.Synced (v : View) : Prop :=
  ∃ sent pending, v.Tracks sent pending ∧ ∀ c ∈ pending, c.bypassesCache = false

/-- Commands that do not bypass the cache change neither last value. -/
theorem last_append_plain {pending : List Command} (h : ∀ c ∈ pending, c.bypassesCache = false)
    (cfg : OrientationConfig) (p : Params) (sent : List Command) :
    lastRemap cfg (sent ++ pending) = lastRemap cfg sent ∧ lastWindow p (sent ++ pending) = lastWindow p sent := by
  induction pending generalizing sent with
  | nil => simp
  | cons c cs ih =>
    obtain ⟨hc, hcs⟩ := List.forall_mem_cons.1 h
    obtain ⟨hremap, hwindow⟩ := last_plain hc cfg p sent
    rw [List.append_cons, ← hremap, ← hwindow]
    exact ih hcs (sent ++ [c])

theorem synced_iff_view {s : State} : Synced s ↔ s.view.Synced := by
  constructor
  · rintro ⟨sent, es, pending, fs, hes, hsent, hfs, hbuf, hplain, hremap, hwindow⟩
    obtain ⟨hr, hw⟩ := last_append_plain hplain s.cfg s.par sent
    exact ⟨sent, pending, ⟨⟨es, fs, hes, hsent, hfs, hbuf⟩, hr.trans hremap, hw.trans hwindow⟩, hplain⟩
  · rintro ⟨sent, pending, ⟨⟨es, fs, hes, hsent, hfs, hbuf⟩, hremap, hwindow⟩, hplain⟩
    obtain ⟨hr, hw⟩ := last_append_plain hplain s.cfg s.par sent
    exact ⟨sent, es, pending, fs, hes, hsent, hfs, hbuf, hplain, hr.symm.trans hremap, hw.symm.trans hwindow⟩

theorem encAll_snoc {p : Params} {cs : List Command} {es : List (List Byte)} {c : Command} {b : List Byte}
    (hcs : encAll p cs = .ok es) (hc : enc p c = .ok b) : encAll p (cs ++ [c]) = .ok (es ++ [b]) :=
  encAll_append hcs (encAll_cons_ok.2 ⟨b, [], hc, rfl, rfl⟩)

section
variable {v v' : View} {sent pending : List Command} {c : Command} {b : List Byte}

theorem View.Carries.flushed (h : v.Carries sent pending) : v.flushed.Carries (sent ++ pending) [] := by
  obtain ⟨es, fs, hes, hsent, hfs, hbuf⟩ := h
  exact ⟨es ++ fs, [], encAll_append hes hfs, by simp [View.flushed, hsent, hbuf], rfl, rfl⟩

/-- The command comes last of all, and what waits then is it and what waited before. -/
theorem View.Carries.append (h : v.Carries sent pending) (hc : enc v.par c = .ok b) (hv : v.Appended b v') :
    ∃ sent' pending', v'.Carries sent' pending' ∧ sent' ++ pending' = sent ++ pending ++ [c] ∧
      pending' ⊆ pending ++ [c] := by
  obtain rfl | rfl := hv
  · obtain ⟨es, fs, hes, hsent, hfs, hbuf⟩ := h
    exact ⟨sent, pending ++ [c], ⟨es, fs ++ [b], hes, hsent, encAll_snoc hfs hc, by simp [hbuf]⟩,
      (List.append_assoc ..).symm, List.Subset.refl _⟩
  · obtain ⟨es, -, hes, hsent, -⟩ := h.flushed
    exact ⟨sent ++ pending, [c], ⟨es, [b], hes, hsent, encAll_snoc (cs := []) rfl hc, by simp⟩, rfl,
      List.subset_append_right ..⟩

theorem View.Tracks.synced_flushed (h : v.Tracks sent pending) : v.flushed.Synced := by
  obtain ⟨hcarries, hlast⟩ := h
  refine ⟨sent ++ pending, [], ⟨hcarries.flushed, ?_⟩, List.forall_mem_nil _⟩
  rw [List.append_nil]
  exact hlast

/-- A command that does not bypass the cache keeps the agreement (41_command_encoder.md R442). -/
theorem View.Synced.append (h : v.Synced) (hplain : c.bypassesCache = false) (hc : enc v.par c = .ok b)
    (hv : v.Appended b v') : v'.Synced := by
  obtain ⟨sent, pending, ⟨hcarries, hlast⟩, hpending⟩ := h
  obtain ⟨sent', pending', hcarries', hcs, hsub⟩ := hcarries.append hc hv
  obtain ⟨hr, hw⟩ := last_plain hplain v.cfg v.par (sent ++ pending)
  refine ⟨sent', pending', ⟨hcarries', ?_⟩, fun d hd => ?_⟩
  · rw [hcs, hv.par, hv.cfg, hv.depth, hv.addr, hr, hw]
    exact hlast
  · obtain hd | hd := List.mem_append.1 (hsub hd)
    · exact hpending d hd
    · exact List.mem_singleton.1 hd ▸ hplain

theorem View.Tracks.appendRemap {d : BitDepth} (h : v.Tracks sent pending)
    (hc : enc v.par (.remapAndColorDepth v.cfg d) = .ok b) (hv : v.Appended b v') :
    ∃ sent' pending', View.Tracks { v' with depth := d } sent' pending' := by
  obtain ⟨hcarries, -, hwindow⟩ := h
  obtain ⟨sent', pending', hcarries', hcs, -⟩ := hcarries.append hc hv
  refine ⟨sent', pending', hcarries', ?_, ?_⟩
  · simp only [hcs, hv.cfg, lastRemap_snoc]
  · simpa only [hcs, hv.par, hv.addr, lastWindow_snoc] using hwindow

theorem View.Tracks.appendWindow {q : Rect} (h : v.Tracks sent pending)
    (hc : enc v.par (.addressRectangle q) = .ok b) (hv : v.Appended b v') :
    ∃ sent' pending', View.Tracks { v' with addr := q } sent' pending' := by
  obtain ⟨hcarries, hremap, -⟩ := h
  obtain ⟨sent', pending', hcarries', hcs, -⟩ := hcarries.append hc hv
  refine ⟨sent', pending', hcarries', ?_, ?_⟩
  · simpa only [hcs, hv.cfg, hv.depth, lastRemap_snoc] using hremap
  · simp only [hcs, lastWindow_snoc]

end

/-! ### What each call leads to -/

/-- The lines of WRITE: what each of its two commands keeps, with its update of the cache, holds before the last FLUSH
(43_driver.md R511, R512, R515). -/
theorem Leads.writeActs {Q : State → Prop} (hQ : HoldsOfFailures Q) {op : Instr} {v : View} {P : View → Prop}
    {cfg : OrientationConfig} {data : List Byte} {depth : BitDepth} {area : Rect}
    (hremap : ∀ b v', depth ≠ v.depth → enc v.par (.remapAndColorDepth cfg depth) = .ok b → v.Appended b v' →
      P { v' with depth := depth })
    (hwindow : ∀ u b v', P u → u.depth = depth → u.addr = v.addr → toRam area cfg ≠ v.addr →
      enc u.par (.addressRectangle (toRam area cfg)) = .ok b → u.Appended b v' → P { v' with addr := toRam area cfg })
    (h : ∀ u, P u → u.depth = depth → u.addr = toRam area cfg → Leads Q op [.dataPhase data, .respond] u.flushed)
    (hv : P v) : Leads Q op (writeActs cfg v.depth v.addr data depth area) v := by
  have window : ∀ u, P u → u.depth = depth → u.addr = v.addr → Leads Q op
      ((if toRam area cfg ≠ v.addr then
          [.append (.addressRectangle (toRam area cfg)), .setAddr (toRam area cfg)] else []) ++
        [.flush, .dataPhase data, .respond]) u := by
    intro u hu hd ha
    split
    · refine .append hQ fun b v' hb hv' => .setAddr (.flush hQ (h _ (hwindow u b v' hu hd ha ‹_› hb hv') ?_ rfl))
      exact hv'.depth.trans hd
    · rename_i hq
      exact .flush hQ (h u hu hd (ha.trans (not_not.1 hq).symm))
  unfold Machine.writeActs
  rw [List.append_assoc]
  split
  · refine .append hQ fun b v' hb hv' => .setDepth (window _ (hremap b v' ‹_› hb hv') rfl ?_)
    exact hv'.addr
  · rename_i hd
    exact window v hv (not_not.1 hd).symm rfl

theorem cacheAgrees_of_failure : HoldsOfFailures CacheAgrees := fun t hl _ hr => by rw [hl] at hr; cases hr

/-- The same of the registers alone. -/
def View.Agrees (v : View) : Prop := v.life = .ready → v.Synced

theorem cacheAgrees_iff_view {s : State} : CacheAgrees s ↔ s.view.Agrees := imp_congr_right fun _ => synced_iff_view

section
variable {op : Instr} {k : List Act} {v : View}

theorem View.Agrees.ret (h : v.Agrees) : Leads CacheAgrees op (.ret :: k) v := by
  rintro s rfl
  exact ends_of_idle rfl fun _ => cacheAgrees_iff_view.2 h

theorem State.respond_view (s : State) : s.respond.view = s.view := view_emit_of_silent s (e := .resp .ok) rfl rfl

theorem View.Agrees.respond (h : v.Agrees) : Leads CacheAgrees op (.respond :: k) v := by
  rintro s rfl
  exact ends_of_idle rfl fun _ => cacheAgrees_iff_view.2 (s.respond_view ▸ h)

theorem View.Agrees.flushed (h : v.Agrees) : v.flushed.Agrees := fun hr => by
  obtain ⟨_, _, htracks, -⟩ := h hr
  exact htracks.synced_flushed

theorem View.Agrees.append {c : Command} {b : List Byte} {v' : View} (h : v.Agrees) (hplain : c.bypassesCache = false)
    (hc : enc v.par c = .ok b) (hv : v.Appended b v') : v'.Agrees := fun hr =>
  (h (hv.life ▸ hr)).append hplain hc hv

theorem View.Agrees.batchActs (h : v.Agrees) {cmds : List Command} (hplain : cmds.any Command.bypassesCache = false)
    (hk : ∀ u : View, u.Agrees → Leads CacheAgrees op k u) : Leads CacheAgrees op (batchActs cmds ++ k) v :=
  .batchActs cacheAgrees_of_failure
    (fun c hc _ _ _ hu hb hv => hu.append (by simpa using List.any_eq_false.1 hplain c hc) hb hv)
    (fun u hu => hk _ hu.flushed) h

/-- SEND of a command that bypasses the cache does not end Ready (41_command_encoder.md R442). -/
theorem View.Agrees.sendActs (h : v.Agrees) (cmds : List Command) : Leads CacheAgrees op (sendActs cmds) v := by
  unfold Machine.sendActs
  rw [List.append_assoc]
  split
  · exact .batchActs (P := fun _ => True) cacheAgrees_of_failure (fun _ _ _ _ _ _ _ _ => trivial)
      (fun u _ => .setLife (View.Agrees.respond nofun)) trivial
  · rename_i hany
    exact h.batchActs (Bool.not_eq_true _ ▸ hany) fun u hu => hu.respond

/-- What WRITE keeps of the state `v` it started in: were the pending commands flushed, a Ready block would agree. -/
def View.Tracked (v u : View) : Prop :=
  u.cfg = v.cfg ∧ (u.life = .ready → ∃ sent pending, u.Tracks sent pending)

theorem View.Agrees.writeActs (h : v.Agrees) (data : List Byte) (depth : BitDepth) (area : Rect) :
    Leads CacheAgrees op (writeActs v.cfg v.depth v.addr data depth area) v := by
  have hv : v.Tracked v := ⟨rfl, fun hr => by obtain ⟨sent, pending, ht, -⟩ := h hr; exact ⟨sent, pending, ht⟩⟩
  refine .writeActs cacheAgrees_of_failure (P := v.Tracked) (fun b v' _ hb hv' => ?_)
    (fun u b v' hu _ _ _ hb hv' => ?_) (fun u hu _ _ => .dataPhase cacheAgrees_of_failure fun t _ ht => ?_) hv
  · obtain ⟨-, htracks⟩ := hv
    refine ⟨hv'.cfg, fun hr => ?_⟩
    obtain ⟨_, _, h⟩ := htracks (hv'.life ▸ hr)
    exact h.appendRemap hb hv'
  · obtain ⟨hcfg, htracks⟩ := hu
    refine ⟨hv'.cfg.trans hcfg, fun hr => ?_⟩
    obtain ⟨_, _, h⟩ := htracks (hv'.life ▸ hr)
    exact h.appendWindow hb hv'
  · obtain ⟨-, htracks⟩ := hu
    refine cacheAgrees_iff_view.2 (t.respond_view ▸ ht ▸ fun hr => ?_)
    obtain ⟨_, _, h⟩ := htracks hr
    exact h.synced_flushed

/-- INIT ends with depth Sixteen, the full panel and an empty buffer, and with nothing sent since its last delay. -/
theorem initActs_agree : Leads CacheAgrees op (initActs v.par v.cfg) v := by
  have hQ := cacheAgrees_of_failure
  refine .setLife (.pinRst hQ (.delay hQ (.pinRst hQ (.delay hQ (.resetCache fun b => ?_)))))
  refine .batchActs hQ
    (P := fun u => u.par = v.par ∧ u.depth = .sixteen ∧ u.addr = ⟨0, 0, v.par.panelW, v.par.panelH⟩)
    (fun c _ u b u' hu _ hu' => ?_) (fun u hu => ?_) ⟨rfl, rfl, rfl⟩
  · rwa [hu'.par, hu'.depth, hu'.addr]
  · obtain ⟨hpar, hdepth, haddr⟩ := hu
    refine .delay hQ (.setLife (View.Agrees.respond fun _ => ⟨[], [], ⟨⟨[], [], rfl, rfl, rfl, rfl⟩, ?_⟩, ?_⟩))
    · simp [View.flushed, lastRemap, lastWindow, hpar, hdepth, haddr]
    · exact List.forall_mem_nil _

end

/-! ### From the pseudocode to coherence -/

theorem coherent_runActs {op : Instr} {k : List Act} {s : State} (h : Leads CacheAgrees op k s.view) :
    Coherent (runActs op k s) := by
  rw [coherent_iff_ends]
  intro ps d bs ds
  obtain ⟨ps', hs⟩ := runActs_replays op k s ps d bs ds
  rw [← hs]
  exact h _ rfl

theorem coherent_raise (s : State) (f : Fatal) : Coherent (s.raise f) :=
  coherent_iff_ends.2 fun ps d bs ds => ends_raise (s := s.answered ps d bs ds) f

theorem coherent_ret {s : State} (h : CacheAgrees s) (v : Result) : Coherent (s.ret v) := by
  rw [coherent_iff_ends]
  intro ps d bs ds
  have hview : ((s.ret v).answered ps d bs ds).view = s.view := by
    simp [State.view, State.answered, State.ret]
  refine ends_of_idle rfl fun _ => cacheAgrees_iff_view.2 ?_
  rw [hview]
  exact cacheAgrees_iff_view.1 h

theorem Coherent.exec_ret {i : Instr} {s t : State} {v : State → Result}
    (hi : exec i s = accept s fun s => s.ret (v s)) (hs : CacheAgrees s) (ht : exec i s = .next t) : Coherent t := by
  obtain ⟨-, rfl⟩ := accept_next.1 (hi ▸ ht)
  exact coherent_ret hs _

theorem Coherent.exec_command {i : Instr} {s t : State} {c : Command} (hi : i.command? = some c) (hs : CacheAgrees s)
    (ht : exec i s = .next t) : Coherent t := by
  rw [exec_of_command hi] at ht
  obtain ⟨-, rfl⟩ := accept_next.1 ht
  split
  · exact coherent_ret hs _
  · exact coherent_raise _ _

/-- Every call that starts in agreement is coherent, but for an encoder function called alone with a command that
bypasses the cache (log 15). -/
theorem Coherent.exec {i : Instr} {s t : State} (hs : CacheAgrees s) (hi : i.bypassesAlone = false)
    (ht : exec i s = .next t) : Coherent t := by
  have hv : s.view.Agrees := cacheAgrees_iff_view.1 hs
  cases i
  case init =>
    obtain ⟨-, rfl⟩ := accept_next.1 ht
    exact coherent_runActs initActs_agree
  case write data depth area =>
    rw [Machine.exec, execWrite] at ht
    obtain ⟨-, rfl⟩ := accept_next.1 ht
    split
    · exact coherent_runActs (hv.writeActs data depth area)
    · exact coherent_raise _ _
  case send cmds =>
    rw [Machine.exec, execSend] at ht
    obtain ⟨-, rfl⟩ := accept_next.1 ht
    split
    · exact coherent_raise _ _
    · exact coherent_runActs (hv.sendActs cmds)
  case tryAppend c =>
    rw [Machine.exec, execTryAppend] at ht
    obtain ⟨-, rfl⟩ := accept_next.1 ht
    split
    · exact coherent_raise _ _
    · obtain ⟨b, hb, ⟨-, -, rfl⟩ | ⟨-, -, rfl⟩⟩ := tryAppend_cases ‹_›
      · exact coherent_ret (cacheAgrees_iff_view.2 (hv.append hi hb (.inl rfl))) _
      · exact coherent_ret hs _
  case flush =>
    obtain ⟨-, rfl⟩ := accept_next.1 ht
    exact coherent_runActs (.flush cacheAgrees_of_failure hv.flushed.ret)
  case appendBatched c =>
    obtain ⟨-, rfl⟩ := accept_next.1 ht
    exact coherent_runActs (.append cacheAgrees_of_failure fun b v' hb hv' => (hv.append hi hb hv').ret)
  case batch cmds =>
    obtain ⟨-, rfl⟩ := accept_next.1 ht
    exact coherent_runActs (hv.batchActs hi fun u hu => hu.ret)
  case size =>
    exact .exec_ret (v := fun s => .size (Sys2Proof.logicalSize s.par s.cfg).1 (Sys2Proof.logicalSize s.par s.cfg).2)
      rfl hs ht
  case logicalSize cfg =>
    exact .exec_ret (v := fun s => .size (Sys2Proof.logicalSize s.par cfg).1 (Sys2Proof.logicalSize s.par cfg).2)
      rfl hs ht
  case clamp | toRam | make8 | encode8 | fromRgb8 | fromGray8 | make16 | encode16 | fromRgb16 | fromGray16 =>
    exact .exec_ret (v := fun _ => _) rfl hs ht
  all_goals exact .exec_command rfl hs ht

/-- Settles O59: a suspended call's coherence covers its next step, and each call's pseudocode leads to agreement. -/
theorem cacheIsWhatWasLastSentWhileReady : Obligations.CacheIsWhatWasLastSentWhileReady := by
  intro s t _ hs hrun ht
  have hcoh : Coherent t := by
    obtain ⟨hl, ⟨op, pt, k, hp, hr⟩ | ⟨item, items, i, more, hp, hport, hf, -, he⟩⟩ := step_next ht
    · exact hs.resume hl hp hr
    · refine Coherent.exec (s := s.setPort (more ++ items)) ?_ (hrun i ?_) he
      · exact (coherent_of_final ⟨hp, hl⟩).1 hs
      · simp [State.running, hp, hport, hf]
  exact ⟨hcoh, fun hf => (coherent_of_final hf).1 hcoh⟩

/-! ## Who may restore trust (43_driver.md R500, 10_state.md R132) -/

/-- An operation other than INIT leaves the lifecycle, or makes it Indeterminate or Faulted. -/
theorem life_closedFor {op : Instr} (hop : op.isInit ≠ true) (s : State) :
    ClosedFor op fun t => t.life = s.life ∨ t.life = .indeterminate ∨ t.life = .faulted where
  quiet h hq := by
    obtain ⟨-, -, -, -, hlife, -⟩ := guarded_eq hq
    rwa [hlife]
  emit _ _ _ _ h := h
  rst _ _ _ h := h
  depth _ _ _ h := h
  addr _ _ _ _ h := h
  life _ _ hl _ := .inr (hl.resolve_left hop)

/-- Settles O51: what any other operation makes of the lifecycle restores no trust. -/
theorem onlyInitRestoresTrust : Obligations.OnlyInitRestoresTrust := by
  intro s t hs ht htrust
  obtain ⟨i, hrun, hi⟩ := step_stops hs ht
  by_cases hop : i.isInit = true
  · exact eq_init_of_isInit hop ▸ hrun
  · obtain ⟨hlife, -⟩ := hi _ (life_closedFor hop s) (.inl rfl)
    obtain h | h | h := hlife <;> rw [h] at htrust <;> exact absurd htrust (by simp +contextual)

/-! ## A WRITE that returned Ok (43_driver.md R515) -/

/-- The bytes of an enqueued RemapAndColorDepth (43_driver.md R511). -/
theorem depthBytes_of_enc {p : Params} {cfg : OrientationConfig} {cur d : BitDepth} {b : List Byte}
    (h : enc p (.remapAndColorDepth cfg d) = .ok b) (hd : d ≠ cur) : depthBytes p cfg cur d = b := by
  cases h
  exact if_neg hd

/-- The bytes of an enqueued AddressRectangle (43_driver.md R512). -/
theorem addressBytes_of_enc {p : Params} {cur q : Rect} {b : List Byte} (h : enc p (.addressRectangle q) = .ok b)
    (hq : q ≠ cur) : addressBytes cur q = b := by
  obtain ⟨-, -, rfl⟩ := withNonEmptyRect4_ok h
  simp only [clamp_eq_coordByte]
  exact if_neg hq

@[simp] theorem depthBytes_self (p : Params) (cfg : OrientationConfig) (d : BitDepth) : depthBytes p cfg d d = [] :=
  if_pos rfl

@[simp] theorem addressBytes_self (q : Rect) : addressBytes q q = [] := if_pos rfl

@[simp] theorem wireOf_append (dc : Line) (bs cs : List Byte) : wireOf dc (bs ++ cs) = wireOf dc bs ++ wireOf dc cs :=
  List.map_append

@[simp] theorem wireOf_nil (dc : Line) : wireOf dc [] = [] := rfl

/-- The bytes delivered once a WRITE of `depth` to the mapped area `q` has flushed its commands, from the registers `v`
on: what waits, and what differs from the cache. -/
def View.commandWire (v : View) (depth : BitDepth) (q : Rect) : List WireByte :=
  v.wire ++ wireOf .low v.buf ++ wireOf .low (depthBytes v.par v.cfg v.depth depth) ++
    wireOf .low (addressBytes v.addr q)

/-- What a WRITE called with the registers `v` keeps of them until its last FLUSH. -/
def View.Writing (v : View) (depth : BitDepth) (q : Rect) (u : View) : Prop :=
  u.par = v.par ∧ u.cfg = v.cfg ∧ u.rst = v.rst ∧ u.life = v.life ∧ u.commandWire depth q = v.commandWire depth q

section
variable {v u u' : View} {depth : BitDepth} {q : Rect} {b : List Byte}

theorem View.Writing.appendRemap (h : v.Writing depth q u) (hd : depth ≠ u.depth)
    (hb : enc u.par (.remapAndColorDepth u.cfg depth) = .ok b) (hu : u.Appended b u') :
    v.Writing depth q { u' with depth := depth } := by
  obtain ⟨hpar, hcfg, hrst, hlife, hwire⟩ := h
  refine ⟨hu.par.trans hpar, hu.cfg.trans hcfg, hu.rst.trans hrst, hu.life.trans hlife, ?_⟩
  rw [← hwire]
  simp only [View.commandWire, hu.wire, hu.addr, depthBytes_self, depthBytes_of_enc hb hd, wireOf_nil, List.append_nil]

theorem View.Writing.appendWindow (h : v.Writing depth q u) (hd : u.depth = depth) (hq : q ≠ u.addr)
    (hb : enc u.par (.addressRectangle q) = .ok b) (hu : u.Appended b u') :
    v.Writing depth q { u' with addr := q } := by
  obtain ⟨hpar, hcfg, hrst, hlife, hwire⟩ := h
  refine ⟨hu.par.trans hpar, hu.cfg.trans hcfg, hu.rst.trans hrst, hu.life.trans hlife, ?_⟩
  rw [← hwire]
  simp only [View.commandWire, hu.wire, hu.depth, hd, depthBytes_self, addressBytes_self, addressBytes_of_enc hb hq,
    wireOf_nil, List.append_nil]

end

/-- What a WRITE of `depth` to the mapped area `q` that was called in `s` and returned Ok has left in `t`
(43_driver.md R515). -/
def WriteSent (data : List Byte) (depth : BitDepth) (q : Rect) (s t : State) : Prop :=
  t.par = s.par ∧ t.depth = depth ∧ t.addr = q ∧ t.buf = [] ∧ t.dc = .high ∧ t.rst = s.rst ∧ t.life = s.life ∧
    t.cfg = s.cfg ∧ t.wire = s.view.commandWire depth q ++ wireOf .high data

theorem writeActs_sent (data : List Byte) (depth : BitDepth) (area : Rect) (op : Instr) (s : State) :
    Leads (fun t => t.result = .unit → WriteSent data depth (toRam area s.cfg) s t) op
      (writeActs s.cfg s.depth s.addr data depth area) s.view := by
  have hQ : HoldsOfFailures fun t => t.result = .unit → WriteSent data depth (toRam area s.cfg) s t :=
    fun t _ hne hr => absurd hr hne
  have hv : s.view.Writing depth (toRam area s.cfg) s.view := ⟨rfl, rfl, rfl, rfl, rfl⟩
  refine .writeActs hQ (fun b v' hd hb hv' => hv.appendRemap hd hb hv')
    (fun u b v' hu hd ha hq hb hv' => hu.appendWindow hd (ha ▸ hq) hb hv') (fun u hu hd ha => .dataPhase hQ ?_) hv
  intro t hdc ht _
  obtain ⟨hpar, hcfg, hrst, hlife, hwire⟩ := hu
  refine ⟨(congrArg View.par ht).trans hpar, (congrArg View.depth ht).trans hd, (congrArg View.addr ht).trans ha,
    congrArg View.buf ht, hdc, (congrArg View.rst ht).trans hrst, (congrArg View.life ht).trans hlife,
    (congrArg View.cfg ht).trans hcfg, (congrArg View.wire ht).trans ?_⟩
  rw [← hwire]
  simp [View.commandWire, View.flushed, hd, ha, wireOf]

theorem exec_write {s t : State} {data : List Byte} {depth : BitDepth} {area : Rect}
    (h : exec (.write data depth area) s = .next t) : Accepts s ∧
      ((inLogical s.par area s.cfg = true ∧
        t = runActs (.write data depth area) (writeActs s.cfg s.depth s.addr data depth area) s) ∨
      t = s.raise (.writeArea area)) := by
  rw [exec, execWrite] at h
  obtain ⟨hs, rfl⟩ := accept_next.1 h
  refine ⟨hs, ?_⟩
  split
  · exact .inl ⟨‹_›, rfl⟩
  · exact .inr rfl

theorem write_returned {n : Nat} {s t : State} {data : List Byte} {depth : BitDepth} {area : Rect}
    (h : CompletesIn n (.write data depth area) s t) (hr : t.result = .unit) :
    inLogical s.par area s.cfg = true ∧ WriteSent data depth (toRam area s.cfg) s t := by
  obtain ⟨u, hu, hrun, hf⟩ := h
  obtain ⟨-, ⟨hin, rfl⟩ | rfl⟩ := exec_write hu
  · exact ⟨hin, writeActs_sent data depth area _ s s rfl n t hrun hf hr⟩
  · exact (ends_raise (Q := fun _ => False) _ n t hrun hf).elim

/-- Settles O32, from what the lines of WRITE keep until the last FLUSH and the data phase. -/
theorem writeThatReturnsOkSentExactlyWhatDiffered : Obligations.WriteThatReturnsOkSentExactlyWhatDiffered := by
  intro n data depth area s t _ h hr
  obtain ⟨-, -, hdepth, haddr, hbuf, hdc, hrst, hlife, hcfg, hwire⟩ := write_returned h hr
  refine ⟨hdepth, haddr, hbuf, hdc, hrst, hlife, hcfg, hwire.trans ?_⟩
  simp [View.commandWire, State.view]

/-! ## A WRITE up to one of its FLUSHes

With Ok answers before it, a WRITE comes to any FLUSH of the greedy cut, or past all of them to its data phase. -/

/-- An update of the cache that follows a command of WRITE (43_driver.md R511, R512). -/
inductive CacheUpdate where
  | depth (d : BitDepth)
  | addr (q : Rect)

def CacheUpdate.act : CacheUpdate → Act
  | .depth d => .setDepth d
  | .addr q => .setAddr q

def CacheUpdate.apply : CacheUpdate → BitDepth × Rect → BitDepth × Rect
  | .depth d, (_, q) => (d, q)
  | .addr q, (d, _) => (d, q)

/-- The cached depth and rectangle. -/
def State.cache (s : State) : BitDepth × Rect := (s.depth, s.addr)

def State.setCache (s : State) (x : BitDepth × Rect) : State := { s with depth := x.1, addr := x.2 }

/-- The lines that enqueue commands, each followed by the update of the cache it stands with. -/
def enqueueActs (items : List (Command × CacheUpdate)) : List Act := items.flatMap fun i => [.append i.1, i.2.act]

/-- The cache once `n` bytes of the commands have been enqueued. -/
def cacheAt : List (Command × CacheUpdate) → Nat → BitDepth × Rect → BitDepth × Rect
  | [], _, x => x
  | (c, w) :: items, n, x => if c.len ≤ n then cacheAt items (n - c.len) (w.apply x) else x

theorem runActs_update (op : Instr) (w : CacheUpdate) (k : List Act) (s : State) :
    runActs op (w.act :: k) s = runActs op k (s.setCache (w.apply s.cache)) := by
  cases w <;> rfl

/-- What the buffer holds when these segments are still to send. -/
def waiting : List (List Byte) → List Byte
  | [] => []
  | seg :: _ => seg

/-- What is in the buffer goes out with the first segment. -/
theorem segments_pending_le {cap : Nat} {pending : List Byte} {es before rest : List (List Byte)}
    (h : segments cap pending es = before ++ rest) : pending.length ≤ (before.flatten ++ waiting rest).length := by
  induction es generalizing pending with
  | nil =>
    cases pending with
    | nil => exact Nat.zero_le _
    | cons b bs =>
      obtain ⟨rfl, rfl⟩ | ⟨_, rfl, -⟩ := List.cons_eq_append_iff.1 h <;> simp [waiting]
  | cons e es ih =>
    by_cases hfit : pending.length + e.length ≤ cap
    · rw [segments_fits es hfit] at h
      have := ih h
      rw [List.length_append] at this
      omega
    · rw [segments_full es hfit] at h
      obtain ⟨rfl, rfl⟩ | ⟨_, rfl, -⟩ := List.cons_eq_append_iff.1 h <;> simp [waiting]

/-- The state with the segments `before` sent and the next of `rest` in the buffer; `ps` and `as` are the answers still
to come. -/
def State.cutAt (s : State) (items : List (Command × CacheUpdate)) (before rest : List (List Byte))
    (ps : List PinAnswer) (as : List BusAnswer) : State :=
  ((s.transmitted before ps as).setBuf (waiting rest)).setCache
    (cacheAt items ((before.flatten ++ waiting rest).length - s.buf.length) s.cache)

/-- Where a run goes on in `s`, with the segments `rest` still to send: at the FLUSH of the first of them, or past the
last FLUSH at the lines `k`. -/
def GoesOn (op : Instr) (k : List Act) : List (List Byte) → State → State → Prop
  | [], s, u => u = runActs op k s
  | _ :: _, s, u => ∃ r, u = flushThen op r s

theorem State.cutAt_start {s : State} (items : List (Command × CacheUpdate)) {rest : List (List Byte)}
    (h : waiting rest = s.buf) :
    s.cutAt items [] rest s.pins s.buses = s := by
  have hcache : cacheAt items 0 s.cache = s.cache := by
    cases items with
    | nil => rfl
    | cons i items =>
      have := i.1.len_pos
      exact if_neg (by omega)
  have hn : ([].flatten ++ waiting rest : List Byte).length - s.buf.length = 0 := by simp [h]
  rw [State.cutAt, hn, hcache, h]
  simp [State.transmitted, State.setBuf, State.setCache, State.cache, segmentEvents]

section
variable {c : Command} {w : CacheUpdate} {items : List (Command × CacheUpdate)} {s : State} {b : List Byte}
  {before rest : List (List Byte)} (ps : List PinAnswer) (as : List BusAnswer) (hb : b.length = c.len)
include hb

/-- The next command fits: it waits with what waited, and the cache is updated. -/
theorem State.cutAt_fits (h : s.buf.length + b.length ≤ (before.flatten ++ waiting rest).length) :
    (((s.setBuf (s.buf ++ b)).setCache (w.apply s.cache)).cutAt items before rest ps as) =
      s.cutAt ((c, w) :: items) before rest ps as := by
  have hn : c.len ≤ (before.flatten ++ waiting rest).length - s.buf.length := by omega
  unfold State.cutAt
  rw [cacheAt, if_pos hn, Nat.sub_sub, ← hb, ← List.length_append]
  rfl

/-- The next command does not fit: what waited is sent, the command waits, and the cache is updated. -/
theorem State.cutAt_full (ph : Phase) (ps' : List PinAnswer) (as' : List BusAnswer)
    (h : b.length ≤ (before.flatten ++ waiting rest).length) :
    (((((s.setPins ps').flushed as').setPhase ph).setBuf b).setCache (w.apply s.cache)).cutAt items before rest ps as =
      (s.cutAt ((c, w) :: items) (s.buf :: before) rest ps as).setPhase ph := by
  have hn : ((s.buf :: before).flatten ++ waiting rest).length - s.buf.length =
      (before.flatten ++ waiting rest).length := by simp
  unfold State.cutAt
  rw [hn, cacheAt, if_pos (hb ▸ h), ← hb, ← State.transmitted_cons s b before ps ps' as as']
  rfl

end

/-- The last FLUSH of a cut: the buffer is empty, or its one segment is the next to send or is sent. -/
theorem runCall_lastFlush (op : Instr) (k : List Act) (n : Nat) {before rest : List (List Byte)} {s : State}
    {ps : List PinAnswer} {as : List BusAnswer} (hl : s.life ≠ .faulted)
    (hsegs : segments s.par.cap s.buf [] = before ++ rest)
    (hpins : s.pins = List.replicate before.length .ok ++ ps)
    (hbuses : s.buses = List.replicate before.length .ok ++ as) :
    ∃ ph u, GoesOn op k rest ((s.cutAt [] before rest ps as).setPhase ph) u ∧
      runCall (before.length + n) (runActs op (.flush :: k) s) = runCall n u := by
  by_cases hbuf : s.buf = []
  · obtain ⟨rfl, rfl⟩ : before = [] ∧ rest = [] := by simpa [hbuf] using hsegs.symm
    obtain rfl : s.pins = ps := hpins
    obtain rfl : s.buses = as := hbuses
    refine ⟨s.phase, _, ?_, by rw [runActs, if_pos hbuf, List.length_nil, Nat.zero_add]⟩
    rw [State.cutAt_start (rest := []) _ hbuf.symm]
    rfl
  · rw [segments_of_pending _ hbuf] at hsegs
    rw [runActs, if_neg hbuf]
    obtain ⟨rfl, rfl⟩ | ⟨_, rfl, hnil⟩ := List.cons_eq_append_iff.1 hsegs
    · obtain rfl : s.pins = ps := hpins
      obtain rfl : s.buses = as := hbuses
      refine ⟨s.phase, _, ?_, by rw [List.length_nil, Nat.zero_add]⟩
      rw [State.cutAt_start _ rfl]
      exact ⟨k, rfl⟩
    · obtain ⟨rfl, rfl⟩ := List.append_eq_nil_iff.1 hnil.symm
      refine ⟨.busy op .flush k, _, rfl, ?_⟩
      rw [List.length_singleton, Nat.add_comm,
        runCall_flushThen_ok (t := s.setPins ps) n hl (nextPin_listed hpins) hbuses, ← State.transmitted_singleton]
      rfl

/-- Commands enqueued and flushed inside any operation, the primitives of the segments `before` answered Ok: one step
for each of them, and then the run goes on with the rest of the greedy cut. -/
theorem runCall_enqueues (op : Instr) (k : List Act) (n : Nat) {items : List (Command × CacheUpdate)}
    {es before rest : List (List Byte)} {s : State} {ps : List PinAnswer} {as : List BusAnswer} (hl : s.life ≠ .faulted)
    (hcap : 11 ≤ s.par.cap)
    (hes : encAll s.par (items.map Prod.fst) = .ok es) (hsegs : segments s.par.cap s.buf es = before ++ rest)
    (hpins : s.pins = List.replicate before.length .ok ++ ps)
    (hbuses : s.buses = List.replicate before.length .ok ++ as) :
    ∃ ph u, GoesOn op k rest ((s.cutAt items before rest ps as).setPhase ph) u ∧
      runCall (before.length + n) (runActs op (enqueueActs items ++ .flush :: k) s) = runCall n u := by
  induction items generalizing es s before with
  | nil =>
    cases hes
    exact runCall_lastFlush op k n hl hsegs hpins hbuses
  | cons i items ih =>
    obtain ⟨c, w⟩ := i
    obtain ⟨b, bs, hb, hbs, rfl⟩ := encAll_cons_ok.1 hes
    change ∃ ph u, _ ∧ runCall _ (runActs op (.append c :: w.act :: (enqueueActs items ++ .flush :: k)) s) = _
    by_cases hfit : s.buf.length + b.length ≤ s.par.cap
    · rw [segments_fits bs hfit] at hsegs
      have hle := segments_pending_le hsegs
      rw [List.length_append] at hle
      rw [runActs_append_fits hb hfit, runActs_update, ← State.cutAt_fits ps as (enc_length hb) hle]
      exact ih (s := (s.setBuf (s.buf ++ b)).setCache (w.apply s.cache)) hl hcap hbs hsegs hpins hbuses
    · rw [segments_full bs hfit] at hsegs
      cases before with
      | nil =>
        obtain rfl := hsegs
        obtain rfl : s.pins = ps := hpins
        obtain rfl : s.buses = as := hbuses
        have hbuf : s.buf ≠ [] := by
          intro h
          exact hfit (by simpa [h] using enc_length_le hcap hb)
        refine ⟨s.phase, _, ?_, by rw [runActs_append_full hb hfit hbuf, List.length_nil, Nat.zero_add]⟩
        rw [State.cutAt_start _ rfl]
        exact ⟨_, rfl⟩
      | cons e before =>
        obtain ⟨rfl, htail⟩ := List.cons_eq_cons.1 hsegs
        have hle := segments_pending_le htail
        let ps' := List.replicate before.length .ok ++ ps
        let as' := List.replicate before.length .ok ++ as
        let busy := Phase.busy op .flush (.retry c :: w.act :: (enqueueActs items ++ .flush :: k))
        obtain ⟨ph, u, hu, hrun⟩ := ih
          (s := ((((s.setPins ps').flushed as').setPhase busy).setBuf b).setCache (w.apply s.cache))
          hl hcap hbs htail rfl rfl
        rw [State.cutAt_full ps as (enc_length hb) busy ps' as' hle] at hu
        refine ⟨ph, u, hu, ?_⟩
        rw [List.length_cons, Nat.add_right_comm,
          runCall_append_full hb _ hl hfit (enc_length_le hcap hb) hpins hbuses, runActs_update]
        exact hrun

/-! ### The commands of a WRITE -/

/-- What a WRITE enqueues for the cache values at its start (43_driver.md R511, R512). -/
def writeItems (cfg : OrientationConfig) (curDepth : BitDepth) (curAddr : Rect) (depth : BitDepth) (q : Rect) :
    List (Command × CacheUpdate) :=
  (if depth ≠ curDepth then [(.remapAndColorDepth cfg depth, .depth depth)] else []) ++
  (if q ≠ curAddr then [(.addressRectangle q, .addr q)] else [])

theorem writeActs_eq (cfg : OrientationConfig) (curDepth : BitDepth) (curAddr : Rect) (data : List Byte)
    (depth : BitDepth) (area : Rect) :
    writeActs cfg curDepth curAddr data depth area =
      enqueueActs (writeItems cfg curDepth curAddr depth (toRam area cfg)) ++
        .flush :: [.dataPhase data, .respond] := by
  unfold writeActs writeItems
  split <;> split <;> rfl

/-- A rectangle inside the panel has an encoding (30_encoding.md R311). -/
theorem enc_addressRectangle {p : Params} {q : Rect} (hp : p.Wf) (hq : inPanel p q = true) :
    ∃ b, enc p (.addressRectangle q) = .ok b := by
  obtain ⟨⟨-, hw⟩, ⟨-, hh⟩, -, -, -, -, -, -, -, hmin, hmax, -⟩ := hp
  obtain ⟨hw0, hh0, hx, hy, hright, hbottom⟩ := Rect.within_iff.1 hq
  have hcorners : CornersIn p q := by
    unfold CornersIn
    omega
  exact ⟨_, (withNonEmptyRect4_of_nonEmpty hw0.ne' hh0.ne').trans (withRect4_of_cornersIn hcorners)⟩

theorem encAll_writeItems {p : Params} {q : Rect} (hp : p.Wf) (hq : inPanel p q = true) (cfg : OrientationConfig)
    (curDepth : BitDepth) (curAddr : Rect) (depth : BitDepth) :
    encAll p ((writeItems cfg curDepth curAddr depth q).map Prod.fst) =
      .ok (writeEncodings p cfg curDepth curAddr depth q) := by
  obtain ⟨b, hb⟩ := enc_addressRectangle hp hq
  have hne : b ≠ [] := enc_ne_nil hb
  have hr : enc p (.remapAndColorDepth cfg depth) = .ok [0xA0, flags p cfg depth] := rfl
  unfold writeItems writeEncodings
  by_cases hd : depth = curDepth <;> by_cases ha : q = curAddr <;>
    simp [encAll, depthBytes, hb, hr, hd, ha, hne, addressBytes_of_enc hb]

/-- The state of a WRITE with the segments `before` sent and the next of `rest` in the buffer; `ps` and `as` are the
answers still to come. -/
def State.writeCut (s : State) (depth : BitDepth) (q : Rect) (before rest : List (List Byte)) (ps : List PinAnswer)
    (as : List BusAnswer) : State :=
  { s.enqueued depth q (before.flatten ++ waiting rest).length with
    buf := waiting rest, pins := ps, buses := as, dc := if before = [] then s.dc else .low
    trace := s.trace ++ segmentEvents before, wire := s.wire ++ wireOf .low before.flatten }

theorem depthBytes_length (p : Params) (cfg : OrientationConfig) (cur d : BitDepth) :
    (depthBytes p cfg cur d).length = if d = cur then 0 else 2 := by
  unfold depthBytes
  split <;> rfl

theorem addressBytes_length (cur q : Rect) : (addressBytes cur q).length = if q = cur then 0 else 6 := by
  unfold addressBytes
  split <;> rfl

theorem cacheAt_remap (cfg : OrientationConfig) (depth : BitDepth) (items : List (Command × CacheUpdate)) (n : Nat)
    (x : BitDepth × Rect) : cacheAt ((.remapAndColorDepth cfg depth, .depth depth) :: items) n x =
      if 2 ≤ n then cacheAt items (n - 2) (depth, x.2) else x := rfl

theorem cacheAt_window (q : Rect) (n : Nat) (x : BitDepth × Rect) :
    cacheAt [(.addressRectangle q, .addr q)] n x = if 6 ≤ n then (x.1, q) else x := rfl

/-- Each value is new exactly when its command is among the bytes enqueued. -/
theorem cacheAt_writeItems (p : Params) (cfg : OrientationConfig) (d : BitDepth) (a : Rect) (depth : BitDepth)
    (q : Rect) (n : Nat) : cacheAt (writeItems cfg d a depth q) n (d, a) =
      (if (depthBytes p cfg d depth).length ≤ n then depth else d,
       if (depthBytes p cfg d depth).length + (addressBytes a q).length ≤ n then q else a) := by
  rw [depthBytes_length, addressBytes_length]
  unfold writeItems
  by_cases hd : depth = d <;> by_cases ha : q = a
  · simp [hd, ha, cacheAt]
  · by_cases h : 6 ≤ n <;> simp [hd, ha, cacheAt_window, h]
  · by_cases h : 2 ≤ n <;> simp [hd, ha, cacheAt_remap, cacheAt, h]
  · by_cases h : 2 ≤ n
    · have h6 : 6 ≤ n - 2 ↔ 8 ≤ n := by omega
      by_cases h8 : 8 ≤ n <;> simp [hd, ha, cacheAt_remap, cacheAt_window, h, h6, h8]
    · have h8 : ¬ 8 ≤ n := by omega
      simp [hd, ha, cacheAt_remap, h, h8]

theorem setCache_writeItems (s : State) (depth : BitDepth) (q : Rect) {n : Nat} (hn : s.buf.length ≤ n) :
    s.setCache (cacheAt (writeItems s.cfg s.depth s.addr depth q) (n - s.buf.length) s.cache) =
      s.enqueued depth q n := by
  rw [State.cache, cacheAt_writeItems s.par, State.setCache, State.enqueued]
  simp only [Nat.le_sub_iff_add_le' hn, Nat.add_assoc]

theorem cutAt_writeItems (s : State) (depth : BitDepth) (q : Rect) (before rest : List (List Byte))
    (ps : List PinAnswer) (as : List BusAnswer) (h : s.buf.length ≤ (before.flatten ++ waiting rest).length) :
    s.cutAt (writeItems s.cfg s.depth s.addr depth q) before rest ps as = s.writeCut depth q before rest ps as :=
  congrArg (fun c : State =>
    { c with
      buf := waiting rest, pins := ps, buses := as, dc := if before = [] then s.dc else .low
      trace := s.trace ++ segmentEvents before, wire := s.wire ++ wireOf .low before.flatten })
    (setCache_writeItems s depth q h)

/-! ### The data phase (43_driver.md R514) -/

section
variable {op : Instr} {data : List Byte} {k : List Act} {s t : State} {as : List BusAnswer} {e : EnvError} {m : Nat}

/-- The state after a call that ended because DC could not be driven (60_exceptions.md R610). -/
def State.driveFailed (s : State) (lvl : Level) (e : EnvError) : State :=
  { s with
    dc := .unknown, life := .indeterminate, phase := .idle, result := .err (.pin e)
    trace := s.trace ++ [.pin .dc lvl (.err e), .resp (.err (.pin e))] }

theorem State.driveFailed_eq (s : State) (lvl : Level) (e : EnvError) :
    ((s.setDc .unknown).emit (.pin .dc lvl (.err e))).fail (.pin e) = s.driveFailed lvl e := by
  simp [State.driveFailed, State.fail, State.ret, State.emit, State.setLife, State.setResult, State.setDc,
    State.setPhase]

/-- The state after a WRITE whose data transfer was answered Ok. -/
def State.dataSent (s : State) (data : List Byte) (as : List BusAnswer) : State :=
  { s with
    buses := as, dc := .high, phase := .idle, result := .unit
    trace := s.trace ++ [.pin .dc .high .ok, .bus .high data .ok, .resp .ok], wire := s.wire ++ wireOf .high data }

/-- The state after a WRITE whose data transfer failed once `n` bytes were delivered (60_exceptions.md R610). -/
def State.dataFailed (s : State) (data : List Byte) (as : List BusAnswer) (e : EnvError) (n : Nat) : State :=
  { s with
    buses := as, dc := .high, life := .indeterminate, phase := .idle, result := .err (.bus e)
    trace := s.trace ++ [.pin .dc .high .ok, .bus .high data (.err e), .resp (.err (.bus e))]
    wire := s.wire ++ wireOf .high (data.take n) }

/-- The state at WRITE's data transfer, once DC has been driven High. -/
def State.sendingData (s : State) (op : Instr) (data : List Byte) (k : List Act) : State :=
  ((s.setDc .high).emit (.pin .dc .high .ok)).suspend op (.data data) k

theorem dataThen_pin_ok (h : s.nextPin = (.ok, t)) : dataThen op data k s = t.sendingData op data k := by
  simp only [dataThen, pinSet, h, memRead_whole]
  rfl

theorem dataThen_pin_err (h : s.nextPin = (.err e, t)) : dataThen op data k s = t.driveFailed .high e := by
  simp only [dataThen, pinSet, h, ← State.driveFailed_eq]
  rfl

theorem State.sendingData_busDone (s : State) :
    (((s.sendingData op data k).setBuses as).busDone data).respond = s.dataSent data as := by
  simp [State.dataSent, State.sendingData, State.suspend, State.busDone, State.respond, State.ret, State.emit,
    State.deliver, State.setBuses, State.setResult, State.setDc, State.setPhase, wireOf]

theorem State.sendingData_busFailed (s : State) :
    ((s.sendingData op data k).setBuses as).busFailed data e m = s.dataFailed data as e m := by
  simp [State.dataFailed, State.sendingData, State.suspend, State.busFailed, State.fail, State.ret, State.emit,
    State.deliver, State.setBuses, State.setLife, State.setResult, State.setDc, State.setPhase, wireOf]

theorem runCall_dataThen_ok (hl : t.life ≠ .faulted) (hp : s.nextPin = (.ok, t)) (hb : t.buses = .ok :: as) :
    runCall 1 (dataThen op data [.respond] s) = .next (t.dataSent data as) := by
  rw [dataThen_pin_ok hp, runCall_data_ok (s := t.sendingData op data [.respond]) 0 hl rfl hb]
  exact congrArg _ t.sendingData_busDone

theorem runCall_dataThen_bus_err (hl : t.life ≠ .faulted) (hp : s.nextPin = (.ok, t))
    (hb : t.buses = .err e m :: as) :
    runCall 1 (dataThen op data k s) = .next (t.dataFailed data as e m) := by
  have hstep : step (t.sendingData op data k) = .next (t.dataFailed data as e m) := by
    rw [step_busy (s := t.sendingData op data k) hl rfl, resume, answerBus]
    simp only [show (t.sendingData op data k).buses = .err e m :: as from hb, State.sendingData_busFailed]
  rw [dataThen_pin_ok hp, runCall_busy 0 rfl hstep, runCall]

end

/-! ### A WRITE from call to end -/

theorem replicate_succ_append {α : Type} (n : Nat) (a : α) (l : List α) :
    List.replicate (n + 1) a ++ l = List.replicate n a ++ a :: l := by
  rw [List.replicate_succ', List.append_assoc]
  rfl

section
variable {data : List Byte} {depth : BitDepth} {area : Rect} {s t : State} (hs : Accepts s) (hp : s.par.Wf)
  (hin : inLogical s.par area s.cfg = true)
include hs hp hin

/-- A WRITE whose transfers `before` were answered Ok ends where the run that goes on from there ends. -/
theorem completesIn_write (n : Nat) {before rest : List (List Byte)} {ps : List PinAnswer} {as : List BusAnswer}
    (hsegs : segments s.par.cap s.buf (writeEncodings s.par s.cfg s.depth s.addr depth (toRam area s.cfg)) =
      before ++ rest)
    (hpins : s.pins = List.replicate before.length .ok ++ ps)
    (hbuses : s.buses = List.replicate before.length .ok ++ as)
    (h : ∀ ph u, GoesOn (.write data depth area) [.dataPhase data, .respond] rest
      ((s.writeCut depth (toRam area s.cfg) before rest ps as).setPhase ph) u → runCall n u = .next t)
    (ht : t.Final) : CompletesIn (before.length + n) (.write data depth area) s t := by
  have hq : inPanel s.par (toRam area s.cfg) = true := inPanel_toRam hin
  have hcap : 11 ≤ s.par.cap := by
    obtain ⟨-, -, hcap, -⟩ := hp
    exact hcap
  obtain ⟨ph, u, hu, hrun⟩ := runCall_enqueues (.write data depth area) [.dataPhase data, .respond] n hs.1 hcap
    (encAll_writeItems hp hq s.cfg s.depth s.addr depth) hsegs hpins hbuses
  rw [cutAt_writeItems _ _ _ _ _ _ _ (segments_pending_le hsegs)] at hu
  refine ⟨runActs (.write data depth area) (writeActs s.cfg s.depth s.addr data depth area) s, ?_, ?_, ht⟩
  · rw [exec, execWrite, accept_of_accepts hs, if_pos hin]
  · rw [writeActs_eq, hrun]
    exact h ph u hu

/-- A WRITE whose transfers were all answered Ok comes to its data phase with the new cache and an empty buffer. -/
theorem completesIn_write_data (n : Nat) {ps : List PinAnswer} {as : List BusAnswer} {segs : List (List Byte)}
    (hsegs : segments s.par.cap s.buf (writeEncodings s.par s.cfg s.depth s.addr depth (toRam area s.cfg)) = segs)
    (hpins : s.pins = List.replicate segs.length .ok ++ ps) (hbuses : s.buses = List.replicate segs.length .ok ++ as)
    (h : ∀ ph, runCall n (dataThen (.write data depth area) data [.respond]
      (((s.transmitted segs ps as).setCache (depth, toRam area s.cfg)).setPhase ph)) = .next t) (ht : t.Final) :
    CompletesIn (segs.length + n) (.write data depth area) s t := by
  refine completesIn_write hs hp hin n (rest := []) (by rw [hsegs, List.append_nil]) hpins hbuses ?_ ht
  rintro ph _ rfl
  refine Eq.trans (congrArg (runCall n <| dataThen _ data [.respond] <| State.setPhase · ph) ?_) (h ph)
  have hlen : (segs.flatten ++ waiting []).length = s.buf.length +
      (depthBytes s.par s.cfg s.depth depth).length + (addressBytes s.addr (toRam area s.cfg)).length := by
    rw [← hsegs, segments_flatten, writeEncodings_flatten]
    simp [waiting, Nat.add_assoc]
  rw [State.writeCut, hlen, State.enqueued_all]
  rfl

/-- A WRITE whose every primitive is answered Ok. -/
theorem write_completes {ps : List PinAnswer} {as : List BusAnswer} {segs : List (List Byte)}
    (hsegs : segments s.par.cap s.buf (writeEncodings s.par s.cfg s.depth s.addr depth (toRam area s.cfg)) = segs)
    (hpins : s.pins = List.replicate segs.length .ok ++ .ok :: ps)
    (hbuses : s.buses = List.replicate segs.length .ok ++ .ok :: as) :
    CompletesIn (segs.length + 1) (.write data depth area) s
      ((((s.transmitted segs (.ok :: ps) (.ok :: as)).setCache (depth, toRam area s.cfg)).setPins ps).dataSent data
        as) :=
  completesIn_write_data hs hp hin 1 hsegs hpins hbuses
    (fun ph => runCall_dataThen_ok
      (t := (((s.transmitted segs (.ok :: ps) (.ok :: as)).setCache (depth, toRam area s.cfg)).setPhase ph).setPins ps)
      hs.1 (nextPin_listed rfl) rfl)
    ⟨rfl, hs.1⟩

end

/-- Settles O34: the run comes to the FLUSH or to the data phase that fails. -/
theorem failedWriteLeavesADefiniteState : Obligations.FailedWriteLeavesADefiniteState := by
  intro data depth area s e m ps as hs hp hin q segs
  refine ⟨fun before after seg hsegs => ⟨fun hpins hbuses => ?_, fun hpins hbuses => ?_⟩, fun hpins hbuses => ?_,
    fun hpins hbuses => ?_⟩
  · refine completesIn_write hs hp hin 0 hsegs hpins hbuses ?_ ⟨hs.2, nofun⟩
    rintro ph _ ⟨r, rfl⟩
    rw [runCall, flushThen_pin_err (nextPin_listed rfl), State.driveFailed_eq, State.driveFailed, ← hs.2]
    rfl
  · refine completesIn_write hs hp hin 1 hsegs (replicate_succ_append .. ▸ hpins) hbuses ?_ ⟨hs.2, nofun⟩
    rintro ph _ ⟨r, rfl⟩
    rw [runCall_flushThen_bus_err 0 _ (nextPin_listed rfl) rfl, State.flushFailed, ← hs.2]
    · rw [wireOf_append, ← List.append_assoc s.wire]
      rfl
    · exact hs.1
  · refine completesIn_write_data hs hp hin 0 rfl hpins hbuses (fun ph => ?_) ⟨hs.2, nofun⟩
    rw [runCall, dataThen_pin_err (nextPin_listed rfl), State.driveFailed, ← hs.2]
    rfl
  · refine completesIn_write_data hs hp hin 1 rfl (replicate_succ_append .. ▸ hpins) hbuses (fun ph => ?_)
      ⟨hs.2, nofun⟩
    rw [runCall_dataThen_bus_err _ (nextPin_listed rfl) rfl, State.dataFailed, ← hs.2]
    · rfl
    · exact hs.1

/-- Encodings that fit together with what waits go out in one transfer, if there is anything to send. -/
theorem segments_of_fit {cap : Nat} {pending : List Byte} {es : List (List Byte)}
    (h : (pending ++ es.flatten).length ≤ cap) : segments cap pending es = segments cap (pending ++ es.flatten) [] := by
  induction es generalizing pending with
  | nil => simp
  | cons e es ih =>
    rw [List.flatten_cons, ← List.append_assoc] at h ⊢
    have hfit : (pending ++ e).length ≤ cap := le_trans (by simp) h
    rw [segments_fits es (by simpa using hfit)]
    exact ih h

/-- From an empty buffer the commands of a WRITE go out in one transfer, if there is anything to send: both fit. -/
theorem segments_writeEncodings {cap : Nat} (hcap : 11 ≤ cap) (p : Params) (cfg : OrientationConfig) (d : BitDepth)
    (a : Rect) (depth : BitDepth) (q : Rect) :
    segments cap [] (writeEncodings p cfg d a depth q) =
      if depthBytes p cfg d depth ++ addressBytes a q = [] then []
      else [depthBytes p cfg d depth ++ addressBytes a q] := by
  have hlen : (depthBytes p cfg d depth ++ addressBytes a q).length ≤ cap := by
    rw [List.length_append, depthBytes_length, addressBytes_length]
    split <;> split <;> omega
  rw [segments_of_fit (by rwa [writeEncodings_flatten]), writeEncodings_flatten, List.nil_append]
  split
  · rename_i h
    rw [h, segments_nil_nil]
  · exact segments_of_pending _ ‹_›

/-- Settles O31: the cut has one segment or none, and then comes the data phase. -/
theorem writeHasFourEventShapes : Obligations.WriteHasFourEventShapes := by
  intro data depth area s ps as hs hp hbuf hin q cmd n hpins hbuses
  let segs := if cmd = [] then [] else [cmd]
  have hsegs : segments s.par.cap s.buf (writeEncodings s.par s.cfg s.depth s.addr depth q) = segs := by
    obtain ⟨-, -, hcap, -⟩ := hp
    rw [hbuf, segments_writeEncodings hcap]
  have hlen : segs.length = n := apply_ite List.length ..
  have hevents : segmentEvents segs = if cmd = [] then [] else flushEvents cmd := by
    rw [apply_ite segmentEvents]
    simp [segmentEvents]
  have hflatten : segs.flatten = cmd := by
    rw [apply_ite List.flatten]
    split <;> simp [*]
  rw [replicate_succ_append, ← hlen] at hpins hbuses
  have h := write_completes (data := data) hs hp hin hsegs hpins hbuses
  rw [hlen, State.dataSent, State.transmitted, ← hs.2] at h
  simp only [State.setCache, State.setPins, hevents, hflatten] at h
  rw [hbuf]
  exact h

/-- Settles O33: after a WRITE that returned Ok neither the depth nor the area differs, and the buffer is empty. -/
theorem repeatedWriteSendsDataOnly : Obligations.RepeatedWriteSendsDataOnly := by
  intro n data data' depth area s t ps as hp h hr hpins hbuses
  obtain ⟨hin, hpar, hdepth, haddr, hbuf, hdc, -, -, hcfg, -⟩ := write_returned h hr
  obtain ⟨-, -, -, hidle, hl⟩ := h
  have hsegs : segments t.par.cap t.buf (writeEncodings t.par t.cfg t.depth t.addr depth (toRam area t.cfg)) = [] := by
    rw [hdepth, haddr, hcfg, hbuf]
    simp [writeEncodings]
  have hwrite := write_completes (data := data') ⟨hl, hidle⟩ (hpar ▸ hp) (hpar ▸ hcfg ▸ hin) hsegs hpins hbuses
  rw [← hpins, ← hbuses, State.transmitted_nil hbuf, hcfg] at hwrite
  rw [hdc, hr, hidle, hdepth, haddr]
  exact hwrite

/-! ## INIT (43_driver.md R500 to R502) -/

/-- The initialisation commands encode to the bytes of 43_driver.md R502: the whole panel is a rectangle with corners in
range. -/
theorem encAll_initCommands {p : Params} (hp : p.Wf) (cfg : OrientationConfig) :
    encAll p (initCommands p cfg) = .ok (initEncodings p cfg) := by
  obtain ⟨⟨hw0, hw⟩, ⟨hh0, hh⟩, -, -, -, -, -, -, -, hmin, hmax, -⟩ := hp
  have edge : ∀ n : Nat, 1 ≤ n → coordByte (0 + n - 1) = BitVec.ofNat 8 (n - 1) := by
    intro n hn
    rw [← clamp_eq_coordByte, ← clamp_natCast]
    congr 1
    omega
  have hcorners : CornersIn p ⟨0, 0, p.panelW, p.panelH⟩ := by
    unfold CornersIn
    dsimp only
    omega
  have hclear : enc p (.clearWindow ⟨0, 0, p.panelW, p.panelH⟩) =
      .ok [0x25, 0, 0, BitVec.ofNat 8 (p.panelW - 1), BitVec.ofNat 8 (p.panelH - 1)] := by
    rw [← edge _ hw0, ← edge _ hh0]
    exact (withNonEmptyRect4_of_nonEmpty (Nat.ne_zero_of_lt hw0) (Nat.ne_zero_of_lt hh0)).trans
      (withRect4_of_cornersIn hcorners)
  simp only [initCommands, encAll, hclear]
  rfl

/-- The state after RST was driven to a level and a delay elapsed (43_driver.md R501). -/
def State.pulsed (s : State) (lvl : Level) (ms : Nat) (ps : List PinAnswer) (ds : List DelayAnswer) : State :=
  { s with
    rst := Level.line lvl, pins := ps, delays := ds
    trace := s.trace ++ [.pin .rst lvl .ok, .delay ms] }

theorem runCall_pulse (op : Instr) (k : List Act) (n : Nat) {s : State} {lvl : Level} {ms : Nat} {ps : List PinAnswer}
    {ds : List DelayAnswer} (hl : s.life ≠ .faulted) (hpins : s.pins = .ok :: ps)
    (hdelays : s.delays = .elapsed :: ds) :
    runCall (n + 1) (runActs op (.pin .rst lvl :: .delay ms :: k) s) =
      runCall n (runActs op k ((s.pulsed lvl ms ps ds).setPhase (.busy op (.delay ms) k))) := by
  rw [runActs_pin, pinSet_rst_ok lvl hpins, afterPin, runActs,
    runCall_delay_elapsed (s := (((s.setPins ps).setRst (Level.line lvl)).emit _).suspend op (.delay ms) k) n hl rfl
      hdelays]
  refine congrArg (runCall n <| runActs op k ·) ?_
  simp [State.pulsed, State.suspend, State.emit, State.setDelays, State.setRst, State.setPins, State.setPhase]

theorem resetCache_eq (s : State) : s.resetCache =
    ((s.setDepth .sixteen).setAddr ⟨0, 0, s.par.panelW, s.par.panelH⟩).setBuf
      (if s.par.initClearsBuffer then [] else s.buf) := by
  unfold State.resetCache
  split <;> rfl

/-- The state in which INIT's BATCH starts (43_driver.md R501). -/
def State.initReset (s : State) (ps : List PinAnswer) (ds : List DelayAnswer) : State :=
  { s with
    depth := .sixteen, addr := ⟨0, 0, s.par.panelW, s.par.panelH⟩
    buf := if s.par.initClearsBuffer then [] else s.buf, rst := .high, life := .initializing, pins := ps, delays := ds
    trace := s.trace ++ [.pin .rst .low .ok, .delay s.par.tRstLow, .pin .rst .high .ok, .delay s.par.tRstHigh] }

/-- The lines of INIT after its BATCH. -/
def initTail (p : Params) : List Act := [.delay p.tClear, .setLife .ready, .respond]

theorem runCall_initActs (n : Nat) {s : State} {ps : List PinAnswer} {ds : List DelayAnswer}
    (hpins : s.pins = .ok :: .ok :: ps) (hdelays : s.delays = .elapsed :: .elapsed :: ds) :
    ∃ ph, runCall (n + 2) (runActs .init (initActs s.par s.cfg) s) =
      runCall n (runActs .init (batchActs (initCommands s.par s.cfg) ++ initTail s.par)
        ((s.initReset ps ds).setPhase ph)) := by
  let batch := batchActs (initCommands s.par s.cfg) ++ initTail s.par
  let s₁ := ((s.setLife .initializing).pulsed .low s.par.tRstLow (.ok :: ps) (.elapsed :: ds)).setPhase
    (.busy .init (.delay s.par.tRstLow) (.pin .rst .high :: .delay s.par.tRstHigh :: .resetCache :: batch))
  have low := runCall_pulse (s := s.setLife .initializing) .init
    (.pin .rst .high :: .delay s.par.tRstHigh :: .resetCache :: batch) (n + 1) (lvl := .low) (ms := s.par.tRstLow)
    Life.noConfusion hpins hdelays
  have high := runCall_pulse (s := s₁) .init (.resetCache :: batch) n (lvl := .high) (ms := s.par.tRstHigh)
    Life.noConfusion rfl rfl
  refine ⟨.busy .init (.delay s.par.tRstHigh) (.resetCache :: batch), low.trans (high.trans ?_)⟩
  rw [runActs, resetCache_eq]
  refine congrArg (runCall n <| runActs .init batch ·) ?_
  simp [s₁, State.initReset, State.pulsed, State.setDepth, State.setAddr, State.setBuf, State.setPhase, State.setLife,
    Level.line]

/-- The clear delay elapses, and the block is Ready. -/
theorem runCall_initTail {s : State} {ds : List DelayAnswer} (hl : s.life ≠ .faulted)
    (hdelays : s.delays = .elapsed :: ds) :
    runCall 1 (runActs .init (initTail s.par) s) = .next
      { s with
        life := .ready, phase := .idle, delays := ds, result := .unit
        trace := s.trace ++ [.delay s.par.tClear, .resp .ok] } := by
  rw [initTail, runActs, runCall_delay_elapsed (s := s.suspend _ _ _) 0 hl rfl hdelays, runCall]
  simp [runActs, State.suspend, State.respond, State.ret, State.emit, State.setDelays, State.setLife, State.setResult,
    State.setPhase]

/-- Settles O27: the reset pulse, the BATCH of the initialisation commands, and the tail. -/
theorem initLeavesTheBlockReady : Obligations.InitLeavesTheBlockReady := by
  intro s ps as ds hs hp stale segs hpins hbuses hdelays
  have hcap : 11 ≤ s.par.cap := by
    obtain ⟨-, -, hcap, -⟩ := hp
    exact hcap
  have hflatten : segs.flatten = stale ++ (initEncodings s.par s.cfg).flatten := segments_flatten ..
  have hne : segs ≠ [] := by
    intro h
    simp [h, initEncodings] at hflatten
  let ps' := List.replicate segs.length .ok ++ ps
  obtain ⟨ph, hstart⟩ := runCall_initActs (ps := ps') (ds := .elapsed :: ds) (segs.length + 1) hpins hdelays
  let started := (s.initReset ps' (.elapsed :: ds)).setPhase ph
  obtain ⟨ph', hbatch⟩ := runCall_batchActs .init (initTail s.par) 1 (s := started)
    Life.noConfusion hcap (encAll_initCommands hp s.cfg) rfl hbuses
  refine ⟨_, accept_of_accepts hs _, hstart.trans (hbatch.trans ?_), hs.2, nofun⟩
  rw [← hflatten, hs.2]
  refine (runCall_initTail (s := (started.transmitted segs ps as).setPhase ph') Life.noConfusion rfl).trans ?_
  simp [started, State.transmitted, State.initReset, hne]

/-- Settles O28: O27 under the adopted parameters, where the cut is one segment. -/
theorem adoptedInitIsSixteenBytesInOneTransfer : Obligations.AdoptedInitIsSixteenBytesInOneTransfer := by
  refine ⟨rfl, ?_⟩
  intro s ps as ds hs hpar hcfg hpins hbuses hdelays bytes
  have hstale : (if s.par.initClearsBuffer then [] else s.buf) = [] := by rw [hpar]; rfl
  have hbytes : (initEncodings s.par s.cfg).flatten = bytes := by rw [hpar, hcfg]; rfl
  have hsegs : segments s.par.cap [] (initEncodings s.par s.cfg) = [bytes] := by rw [hpar, hcfg]; rfl
  have h := initLeavesTheBlockReady s ps as ds hs (hpar ▸ by decide)
  dsimp only at h
  rw [hstale, hsegs, hbytes, List.append_assoc, List.append_assoc] at h
  rw [hpar] at h ⊢
  exact h hpins hbuses hdelays

end Sys2Proof.Machine
end
section
/-! PROOFS of the family 45_pixel_format.md: the colours, their bytes, and sequences of pixels. -/

namespace Sys2Proof

/-! ## The channels of a colour -/

@[simp] theorem red_make8 (r g b : Nat) : (make8 r g b).red = r &&& 7 :=
  (Nat.and_two_pow_sub_one_eq_mod r 3).symm

@[simp] theorem green_make8 (r g b : Nat) : (make8 r g b).green = g &&& 7 :=
  (Nat.and_two_pow_sub_one_eq_mod g 3).symm

@[simp] theorem blue_make8 (r g b : Nat) : (make8 r g b).blue = b &&& 3 :=
  (Nat.and_two_pow_sub_one_eq_mod b 2).symm

@[simp] theorem red_make16 (r g b : Nat) : (make16 r g b).red = r &&& 31 :=
  (Nat.and_two_pow_sub_one_eq_mod r 5).symm

@[simp] theorem green_make16 (r g b : Nat) : (make16 r g b).green = g &&& 63 :=
  (Nat.and_two_pow_sub_one_eq_mod g 6).symm

@[simp] theorem blue_make16 (r g b : Nat) : (make16 r g b).blue = b &&& 31 :=
  (Nat.and_two_pow_sub_one_eq_mod b 5).symm

/-! ## The reduction of a full-precision channel -/

/-- What is left of a byte shifted right by `k` fits a channel of `8 - k` bits, so the mask takes nothing. -/
theorem shiftRight_and_channelMask (v : Byte) {k n : Nat} (h : k + n = 8) :
    v.toNat >>> k &&& (2 ^ n - 1) = v.toNat / 2 ^ k := by
  have hfits : v.toNat / 2 ^ k < 2 ^ n := Nat.div_lt_of_lt_mul (by rw [← Nat.pow_add, h]; exact v.isLt)
  rw [Nat.shiftRight_eq_div_pow, Nat.and_two_pow_sub_one_eq_mod, Nat.mod_eq_of_lt hfits]

theorem channels_fromRgb8 (r g b : Byte) :
    (fromRgb8 r g b).red = r.toNat / 32 ∧ (fromRgb8 r g b).green = g.toNat / 32 ∧
      (fromRgb8 r g b).blue = b.toNat / 64 := by
  simp only [fromRgb8, red_make8, green_make8, blue_make8]
  exact ⟨shiftRight_and_channelMask r (k := 5) (n := 3) rfl, shiftRight_and_channelMask g (k := 5) (n := 3) rfl,
    shiftRight_and_channelMask b (k := 6) (n := 2) rfl⟩

theorem channels_fromRgb16 (r g b : Byte) :
    (fromRgb16 r g b).red = r.toNat / 8 ∧ (fromRgb16 r g b).green = g.toNat / 4 ∧
      (fromRgb16 r g b).blue = b.toNat / 8 := by
  simp only [fromRgb16, red_make16, green_make16, blue_make16]
  exact ⟨shiftRight_and_channelMask r (k := 3) (n := 5) rfl, shiftRight_and_channelMask g (k := 2) (n := 6) rfl,
    shiftRight_and_channelMask b (k := 3) (n := 5) rfl⟩

/-- A gray is the colour of three equal channels (45_pixel_format.md R564). -/
theorem fromGray8_eq_fromRgb8 (l : Byte) : fromGray8 l = fromRgb8 l l l := rfl

/-- A gray is the colour of three equal channels (45_pixel_format.md R574). -/
theorem fromGray16_eq_fromRgb16 (l : Byte) : fromGray16 l = fromRgb16 l l l := rfl

/-! ## Fields packed side by side -/

section
variable {m n k : Nat} {x : BitVec m} {y : BitVec n} {z : BitVec k}

/-- A stretch of a stretch is a stretch of the word. -/
theorem extractLsb'_extractLsb'_of_add_le {w start len start' len' : Nat} (v : BitVec w) (h : start' + len' ≤ len) :
    (v.extractLsb' start len).extractLsb' start' len' = v.extractLsb' (start + start') len' := by
  ext i hi
  have hlen : start' + i < len := by omega
  simp [hlen, Nat.add_assoc]

theorem append_eq_iff {w : BitVec (m + n)} : x ++ y = w ↔ x = w.extractLsb' n m ∧ y = w.extractLsb' 0 n := by
  constructor
  · rintro rfl
    exact ⟨BitVec.extractLsb'_append_eq_left.symm, BitVec.extractLsb'_append_eq_right.symm⟩
  · rintro ⟨rfl, rfl⟩
    exact BitVec.extractLsb'_append_extractLsb'

/-- Three fields make up a word exactly when they are what the word holds at their places. -/
theorem append_append_eq_iff {w : BitVec (m + n + k)} : x ++ y ++ z = w ↔
    x = w.extractLsb' (k + n) m ∧ y = w.extractLsb' k n ∧ z = w.extractLsb' 0 k := by
  rw [append_eq_iff, append_eq_iff, extractLsb'_extractLsb'_of_add_le w (Nat.add_comm n m).le,
    extractLsb'_extractLsb'_of_add_le w (by omega), Nat.add_zero, and_assoc]

theorem toNat_append_append :
    (x ++ y ++ z).toNat = (x.toNat <<< (n + k)) ||| (y.toNat <<< k) ||| z.toNat := by
  rw [BitVec.toNat_append, BitVec.toNat_append, Nat.shiftLeft_or_distrib, Nat.shiftLeft_add]

end

/-! ## The bytes of a colour -/

/-- The colour that ENCODE8 packs into a byte (45_pixel_format.md R562). -/
def C8.ofByte (v : Byte) : C8 := ⟨v.extractLsb' 5 3, v.extractLsb' 2 3, v.extractLsb' 0 2⟩

theorem encode8_eq_iff {c : C8} {v : Byte} : encode8 c = [v] ↔ c = C8.ofByte v := by
  obtain ⟨r, g, b⟩ := c
  rw [encode8, List.singleton_inj, append_append_eq_iff, C8.ofByte, C8.mk.injEq]

theorem encode8_ofByte (v : Byte) : encode8 (C8.ofByte v) = [v] := encode8_eq_iff.2 rfl

theorem encode8_injective : Function.Injective encode8 := fun _ _ h =>
  (encode8_eq_iff.1 h).trans (encode8_eq_iff.1 rfl).symm

/-- The colour that ENCODE16 packs into a word (45_pixel_format.md R572). -/
def C16.ofWord (w : BitVec 16) : C16 := ⟨w.extractLsb' 11 5, w.extractLsb' 5 6, w.extractLsb' 0 5⟩

theorem C16.word_eq_iff {c : C16} {w : BitVec 16} : c.word = w ↔ c = C16.ofWord w := by
  obtain ⟨r, g, b⟩ := c
  rw [C16.word, append_append_eq_iff, C16.ofWord, C16.mk.injEq]

/-- ENCODE16's bytes are those of the word, the high one first. -/
theorem encode16_eq_iff_word {c : C16} {hi lo : Byte} : encode16 c = [hi, lo] ↔ hi ++ lo = c.word := by
  rw [append_eq_iff, encode16, List.cons.injEq, List.singleton_inj, eq_comm (a := hi), eq_comm (a := lo)]

theorem encode16_eq_iff {c : C16} {hi lo : Byte} : encode16 c = [hi, lo] ↔ c = C16.ofWord (hi ++ lo) := by
  rw [encode16_eq_iff_word, eq_comm, C16.word_eq_iff]

theorem encode16_ofWord (hi lo : Byte) : encode16 (C16.ofWord (hi ++ lo)) = [hi, lo] := encode16_eq_iff.2 rfl

theorem encode16_injective : Function.Injective encode16 := fun _ _ h =>
  (encode16_eq_iff.1 h).trans (encode16_eq_iff.1 rfl).symm

theorem C16.toNat_word (c : C16) : c.word.toNat = (c.red <<< 11) ||| (c.green <<< 5) ||| c.blue :=
  toNat_append_append

theorem toNat_mul_add_of_encode16_eq {c : C16} {hi lo : Byte} (h : encode16 c = [hi, lo]) :
    hi.toNat * 256 + lo.toNat = (c.red <<< 11) ||| (c.green <<< 5) ||| c.blue := by
  rw [← c.toNat_word, ← encode16_eq_iff_word.1 h, BitVec.toNat_append, ← Nat.shiftLeft_add_eq_or_of_lt lo.isLt,
    Nat.shiftLeft_eq]

/-! ## Sequences of pixels -/

section
variable {α : Type} {f : α → List Byte} {w : Nat} (hf : ∀ c, (f c).length = w)
include hf

theorem length_flatMap_of_width (cs : List α) : (cs.flatMap f).length = cs.length * w := by
  simp [List.length_flatMap, hf]

/-- Where every pixel takes `w` bytes, pixel `i` stands whole at offset `w * i` (45_pixel_format.md R581). -/
theorem take_drop_flatMap_of_width {cs : List α} {i : Nat} {c : α} (h : cs[i]? = some c) :
    ((cs.flatMap f).drop (w * i)).take w = f c := by
  induction cs generalizing i with
  | nil => simp at h
  | cons d cs ih =>
    cases i with
    | zero =>
      obtain rfl : d = c := by simpa using h
      rw [List.flatMap_cons, Nat.mul_zero, List.drop_zero, List.take_left' (hf d)]
    | succ i =>
      have hskip : w * (i + 1) = (f d).length + w * i := by rw [hf, Nat.mul_succ, Nat.add_comm]
      rw [List.flatMap_cons, hskip, List.drop_length_add_append, ih (by simpa using h)]

end

theorem encode8_length (c : C8) : (encode8 c).length = PixelFormat.width .p8 := rfl

theorem encode16_length (c : C16) : (encode16 c).length = PixelFormat.width .p16 := rfl

/-- Settles O58: each format's pixels have one width. -/
theorem pixelSequencesConcatenate : Obligations.PixelSequencesConcatenate := by
  constructor
  · intro cs i c
    refine ⟨length_flatMap_of_width encode8_length cs, fun h => ?_⟩
    have hpixel := take_drop_flatMap_of_width encode8_length h
    rwa [PixelFormat.width, Nat.one_mul] at hpixel
  · intro cs i c
    exact ⟨length_flatMap_of_width encode16_length cs, take_drop_flatMap_of_width encode16_length⟩

/-! ## The colours' calls -/

namespace Machine

/-- A call whose value does not depend on the state returns it and changes nothing else. -/
theorem exec_of_accept_value {i : Instr} {s : State} {v : Result} (hs : Accepts s)
    (h : exec i s = accept s fun s => s.ret v) : exec i s = .next (s.setResult v) :=
  exec_of_accept_ret (v := fun _ => v) hs h

/-- Settles O53: the calls return the made colours. -/
theorem madeColoursHoldMaskedChannels : Obligations.MadeColoursHoldMaskedChannels := fun r g b _ hs =>
  ⟨⟨make8 r g b, exec_of_accept_value hs rfl, red_make8 r g b, green_make8 r g b, blue_make8 r g b⟩,
    ⟨make16 r g b, exec_of_accept_value hs rfl, red_make16 r g b, green_make16 r g b, blue_make16 r g b⟩⟩

/-- Settles O54: a byte's three fields are those of the one colour packed in it. -/
theorem encodeEightPacksOneByte : Obligations.EncodeEightPacksOneByte :=
  ⟨fun c _ hs => ⟨c.r ++ c.g ++ c.b, exec_of_accept_value hs rfl, toNat_append_append⟩,
    fun _ _ h => encode8_injective h, fun v => ⟨C8.ofByte v, encode8_ofByte v⟩⟩

/-- Settles O55: the two bytes are the word's, and a word's three fields are those of the one colour packed in it. -/
theorem encodeSixteenIsBigEndian : Obligations.EncodeSixteenIsBigEndian :=
  ⟨fun _ _ hs => ⟨_, _, exec_of_accept_value hs rfl, toNat_mul_add_of_encode16_eq rfl⟩,
    fun _ _ h => encode16_injective h, fun hi lo => ⟨C16.ofWord (hi ++ lo), encode16_ofWord hi lo⟩⟩

/-- Settles O56: the shifts keep the top bits, and a gray has three equal channels. -/
theorem eightBitReductionKeepsTopBits : Obligations.EightBitReductionKeepsTopBits := fun r g b l _ hs =>
  ⟨⟨fromRgb8 r g b, exec_of_accept_value hs rfl, channels_fromRgb8 r g b⟩,
    ⟨fromGray8 l, exec_of_accept_value hs rfl, fromGray8_eq_fromRgb8 l ▸ channels_fromRgb8 l l l⟩⟩

/-- Settles O57: the shifts keep the top bits, and a gray has three equal channels. -/
theorem sixteenBitReductionKeepsTopBits : Obligations.SixteenBitReductionKeepsTopBits := fun r g b l _ hs =>
  ⟨⟨fromRgb16 r g b, exec_of_accept_value hs rfl, channels_fromRgb16 r g b⟩,
    ⟨fromGray16 l, exec_of_accept_value hs rfl, fromGray16_eq_fromRgb16 l ▸ channels_fromRgb16 l l l⟩⟩

end Machine
end Sys2Proof
end

section
/-! PROOFS of the family 60_exceptions.md: failures, cancellation, hangs and fatal faults. -/

namespace Sys2Proof

/-! ## Suspended transfers and delays (60_exceptions.md R610, R630, R631) -/

namespace Machine

section
variable {s : State} {op : Instr} {k : List Act} {bytes : List Byte} {done : State → State}

/-- At a transfer the step is the answer of the bus, whichever of the two kinds of transfer it is. -/
theorem step_transfer (hl : s.life ≠ .faulted)
    (hp : s.phase = .busy op (.data bytes) k ∨ (s.phase = .busy op .flush k ∧ bytes = s.buf)) :
    ∃ done, step s = answerBus bytes done s := by
  obtain hp | ⟨hp, rfl⟩ := hp
  · exact ⟨_, step_busy hl hp⟩
  · exact ⟨fun t => runActs op k (t.setBuf []), step_busy hl hp⟩

theorem answerBus_nil (h : s.buses = []) : answerBus bytes done s = .fault .awaitUnanswered := by
  simp only [answerBus, h]

theorem answerBus_err {e : EnvError} {n : Nat} {as : List BusAnswer} (h : s.buses = .err e n :: as) :
    answerBus bytes done s = .next
      { s with
        buses := as, phase := .idle, life := .indeterminate, result := .err (.bus e)
        trace := s.trace ++ [.bus s.dc bytes (.err e), .resp (.err (.bus e))]
        wire := s.wire ++ wireOf s.dc (bytes.take n) } := by
  simp [answerBus, h, State.busFailed, State.fail, State.ret, State.emit, State.deliver, State.setBuses, State.setLife,
    State.setResult, State.setPhase, wireOf]

theorem answerBus_cancel {n : Nat} {as : List BusAnswer} (h : s.buses = .cancel n :: as) :
    answerBus bytes done s = .next
      { s with
        buses := as, phase := .idle, life := .indeterminate, result := .nothing
        trace := s.trace ++ [.bus s.dc bytes .cancelled, .cancel]
        wire := s.wire ++ wireOf s.dc (bytes.take n) } := by
  simp [answerBus, h, State.busCancelled, State.cancelled, State.ret, State.emit, State.deliver, State.setBuses,
    State.setLife, State.setResult, State.setPhase, wireOf]

theorem answerDelay_nil {ms : Nat} (h : s.delays = []) : answerDelay ms done s = .fault .awaitUnanswered := by
  simp only [answerDelay, h]

theorem answerDelay_cancel {ms : Nat} {ds : List DelayAnswer} (h : s.delays = .cancel :: ds) :
    answerDelay ms done s = .next (s.setDelays ds).cancelled := by
  simp only [answerDelay, h]

end

/-- Settles O36: at either kind of transfer the step is the bus's answer, which is the error. -/
theorem failedTransferEndsTheRequest : Obligations.FailedTransferEndsTheRequest := by
  intro s op k e n as bytes hl hb hp
  obtain ⟨done, hstep⟩ := step_transfer hl hp
  rw [hstep, answerBus_err hb]

/-- Settles O37: at a delay and at either kind of transfer the step is the answer, which is the cancellation. -/
theorem cancellationLeavesEveryOtherRegister : Obligations.CancellationLeavesEveryOtherRegister := by
  intro s op k hl
  refine ⟨fun ms ds hp hd => ?_, fun bytes n as hp hb => ?_⟩
  · rw [step_busy hl hp, resume, answerDelay_cancel hd]
    rfl
  · obtain ⟨done, hstep⟩ := step_transfer hl hp
    rw [hstep, answerBus_cancel hb]

/-- Settles O38, at each of the three resumption points. -/
theorem unansweredAwaitHasNoStep : Obligations.UnansweredAwaitHasNoStep := by
  intro s op pt k hl hp h
  rw [step_busy hl hp]
  cases pt with
  | delay ms => rw [resume, answerDelay_nil h]
  | flush => rw [resume, answerBus_nil h]
  | data bytes => rw [resume, answerBus_nil h]

end Machine

/-! ## A WRITE outside the logical bounds (60_exceptions.md R624) -/

theorem logicalSize_eq (p : Params) (cfg : OrientationConfig) :
    logicalSize p cfg =
      (if cfg.order = .rowMajor then p.panelW else p.panelH, if cfg.order = .rowMajor then p.panelH else p.panelW) := by
  cases h : cfg.order with
  | rowMajor => exact logicalSize_of_rowMajor h p
  | columnMajor => exact logicalSize_of_columnMajor h p

theorem inLogical_iff {p : Params} {r : Rect} {cfg : OrientationConfig} : inLogical p r cfg = true ↔
    0 < r.w ∧ 0 < r.h ∧ 0 ≤ r.x ∧ 0 ≤ r.y ∧
      r.x + r.w ≤ (if cfg.order = .rowMajor then p.panelW else p.panelH) ∧
      r.y + r.h ≤ (if cfg.order = .rowMajor then p.panelH else p.panelW) := by
  rw [inLogical, Rect.within_iff, logicalSize_eq]

namespace Machine

/-- Settles O30: WRITE checks the bounds before its first line. -/
theorem writeOutsideLogicalBoundsIsFatal : Obligations.WriteOutsideLogicalBoundsIsFatal := by
  intro data depth area s hs hout
  have hin : ¬ inLogical s.par area s.cfg = true := fun h => hout (inLogical_iff.1 h)
  rw [exec, execWrite, accept_of_accepts hs, if_neg hin, State.raise_eq_faultedBy]

/-! ## A command longer than the capacity (60_exceptions.md R622) -/

theorem exec_appendBatched {s : State} (hs : Accepts s) (c : Command) :
    exec (.appendBatched c) s = .next (runActs (.appendBatched c) [.append c, .ret] s) :=
  accept_of_accepts hs _

section
variable {op : Instr} {k : List Act} {c : Command} {s : State} {b : List Byte} (hb : enc s.par c = .ok b)
  (hlong : s.par.cap < b.length)
include hb hlong

theorem tryAppend_tooLong : tryAppend c s = .ok (false, s) := tryAppend_full hb (by omega)

theorem runActs_append_tooLong (hbuf : s.buf = []) :
    runActs op (.append c :: k) s = s.raise (.cmdTooLarge c) := by
  simp only [runActs, tryAppend_tooLong hb hlong, if_pos hbuf]

theorem runActs_retry_tooLong : runActs op (.retry c :: k) s = s.raise (.cmdTooLarge c) := by
  simp only [runActs, tryAppend_tooLong hb hlong]

end

theorem step_flushing_ok {op : Instr} {k : List Act} {s : State} {as : List BusAnswer} (hl : s.life ≠ .faulted)
    (hb : s.buses = .ok :: as) :
    step (s.flushing op k) = .next (runActs op k ((s.flushed as).setPhase (.busy op .flush k))) := by
  rw [step_busy (s := s.flushing op k) hl rfl, resume, answerBus]
  simp only [show (s.flushing op k).buses = .ok :: as from hb]
  exact congrArg (Host.Outcome.next <| runActs op k ·) (s.flushing_busDone op k as)

/-- Settles O18: such a command fits neither what is pending nor, after the FLUSH, the empty buffer. -/
theorem commandLongerThanCapacityIsFatal : Obligations.CommandLongerThanCapacityIsFatal := by
  intro c b s ps as hs hb hlong
  rw [exec_appendBatched hs]
  refine ⟨fun hbuf => ?_, fun hbuf hpins hbuses => ?_⟩
  · rw [runActs_append_tooLong hb hlong hbuf, State.raise_eq_faultedBy]
  · let busy := Phase.busy (.appendBatched c) .flush [.retry c, .ret]
    let t := (((s.setPins ps).flushed as).setPhase busy).raise (.cmdTooLarge c)
    have hstart : runActs (.appendBatched c) [.append c, .ret] s =
        (s.setPins ps).flushing (.appendBatched c) [.retry c, .ret] := by
      rw [runActs_append_full hb (by omega) hbuf, flushThen_pin_ok (nextPin_listed hpins)]
    have hstep : step ((s.setPins ps).flushing (.appendBatched c) [.retry c, .ret]) = .next t := by
      rw [step_flushing_ok (s := s.setPins ps) hs.1 hbuses]
      exact congrArg _ (runActs_retry_tooLong (s := ((s.setPins ps).flushed as).setPhase busy) hb hlong)
    exact ⟨_, t, congrArg _ hstart, hstep, rfl, rfl, rfl, rfl, rfl, rfl, rfl, rfl, rfl, rfl⟩

/-! ## A failed drive of RST (60_exceptions.md R610) -/

/-- The state after a call that ended because RST could not be driven. -/
def State.resetDriveFailed (s : State) (lvl : Level) (e : EnvError) (ps : List PinAnswer) : State :=
  { s with
    pins := ps, rst := .unknown, life := .indeterminate, phase := .idle, result := .err (.pin e)
    trace := s.trace ++ [.pin .rst lvl (.err e), .resp (.err (.pin e))] }

theorem runActs_rst_err {op : Instr} {lvl : Level} {k : List Act} {s : State} {e : EnvError} {ps : List PinAnswer}
    (h : s.pins = .err e :: ps) : runActs op (.pin .rst lvl :: k) s = s.resetDriveFailed lvl e ps := by
  rw [runActs_pin, pinSet_rst_err lvl h, afterPin, State.resetDriveFailed, List.append_cons s.trace]
  rfl

/-- Settles O29: the first drive of RST fails, or the low pulse is given and the second drive fails. -/
theorem failedResetPulseLeavesTheCache : Obligations.FailedResetPulseLeavesTheCache := by
  intro s e ps ds hs
  have hexec : exec .init s = .next (runActs .init (initActs s.par s.cfg) s) := accept_of_accepts hs _
  refine ⟨fun hpins => ?_, fun hpins hdelays => ⟨_, hexec, ?_, hs.2, nofun⟩⟩
  · rw [hexec, hs.2]
    exact congrArg _ (runActs_rst_err (s := s.setLife .initializing) hpins)
  · let rest := .pin .rst .high :: .delay s.par.tRstHigh :: .resetCache ::
      (batchActs (initCommands s.par s.cfg) ++ initTail s.par)
    have hpulse := runCall_pulse (s := s.setLife .initializing) .init rest 0 (lvl := .low) (ms := s.par.tRstLow)
      Life.noConfusion hpins hdelays
    refine hpulse.trans ?_
    rw [runCall, runActs_rst_err rfl, State.resetDriveFailed, hs.2]
    simp [State.pulsed, State.setLife, State.setPhase]

/-! ## A failed drive of DC in a FLUSH (60_exceptions.md R610) -/

/-- The state after a call whose transfers `before` were answered Ok, and whose FLUSH of `seg` could not drive DC. -/
def State.cutFailed (s : State) (before : List (List Byte)) (seg : List Byte) (e : EnvError) (ps : List PinAnswer)
    (as : List BusAnswer) : State :=
  ((s.transmitted before ps as).setBuf seg).driveFailed .low e

theorem flushThen_cutFailed {op : Instr} {k : List Act} {s : State} {e : EnvError} {ps : List PinAnswer}
    (h : s.pins = .err e :: ps) : flushThen op k s = s.cutFailed [] s.buf e ps s.buses := by
  rw [flushThen_pin_err (nextPin_listed h), State.driveFailed_eq]
  simp [State.cutFailed, State.transmitted, State.driveFailed, State.setPins, State.setBuf, segmentEvents]

theorem State.cutFailed_cons (s : State) (b : List Byte) (ph : Phase) (before : List (List Byte)) (seg : List Byte)
    (e : EnvError) (ps ps' : List PinAnswer) (as as' : List BusAnswer) :
    ((((s.setPins ps').flushed as').setPhase ph).setBuf b).cutFailed before seg e ps as =
      s.cutFailed (s.buf :: before) seg e ps as := by
  rw [State.cutFailed, State.cutFailed, ← State.transmitted_cons s b before ps ps' as as']
  rfl

theorem State.cutFailed_final (s : State) (before : List (List Byte)) (seg : List Byte) (e : EnvError)
    (ps : List PinAnswer) (as : List BusAnswer) : (s.cutFailed before seg e ps as).Final := ⟨rfl, nofun⟩

/-- BATCH's lines inside any operation, the primitives of the segments `before` answered Ok and the next FLUSH unable to
drive DC: one step for each of them, and the operation ends at that FLUSH, whatever lines follow. -/
theorem runCall_batchActs_pin_err (op : Instr) (k : List Act) {cmds : List Command}
    {es before after : List (List Byte)} {seg : List Byte} {s : State} {e : EnvError} {ps : List PinAnswer}
    {as : List BusAnswer} (hl : s.life ≠ .faulted) (hcap : 11 ≤ s.par.cap) (hes : encAll s.par cmds = .ok es)
    (hsegs : segments s.par.cap s.buf es = before ++ seg :: after)
    (hpins : s.pins = List.replicate before.length .ok ++ .err e :: ps)
    (hbuses : s.buses = List.replicate before.length .ok ++ as) :
    runCall before.length (runActs op (batchActs cmds ++ k) s) = .next (s.cutFailed before seg e ps as) := by
  induction cmds generalizing es s before with
  | nil =>
    cases hes
    have hbuf : s.buf ≠ [] := by
      intro h
      simp [h] at hsegs
    rw [segments_of_pending _ hbuf] at hsegs
    obtain ⟨rfl, rfl, rfl⟩ : before = [] ∧ seg = s.buf ∧ after = [] := by
      simpa [List.singleton_eq_append_iff] using hsegs
    obtain rfl : s.buses = as := hbuses
    change runCall 0 (runActs op (.flush :: k) s) = _
    rw [runCall, runActs, if_neg hbuf, flushThen_cutFailed hpins]
  | cons c cs ih =>
    obtain ⟨b, bs, hb, hbs, rfl⟩ := encAll_cons_ok.1 hes
    change runCall _ (runActs op (.append c :: (batchActs cs ++ k)) s) = _
    by_cases hfit : s.buf.length + b.length ≤ s.par.cap
    · rw [segments_fits bs hfit] at hsegs
      rw [runActs_append_fits hb hfit]
      exact ih (s := s.setBuf (s.buf ++ b)) hl hcap hbs hsegs hpins hbuses
    · rw [segments_full bs hfit] at hsegs
      cases before with
      | nil =>
        obtain ⟨rfl, -⟩ := List.cons_eq_cons.1 hsegs
        obtain rfl : s.buses = as := hbuses
        have hbuf : s.buf ≠ [] := by
          intro h
          exact hfit (by simpa [h] using enc_length_le hcap hb)
        rw [runActs_append_full hb hfit hbuf, List.length_nil, runCall, flushThen_cutFailed hpins]
      | cons pending before =>
        obtain ⟨rfl, htail⟩ := List.cons_eq_cons.1 hsegs
        let ps' := List.replicate before.length .ok ++ .err e :: ps
        let as' := List.replicate before.length .ok ++ as
        let busy := Phase.busy op .flush (.retry c :: (batchActs cs ++ k))
        rw [List.length_cons, runCall_append_full hb _ hl hfit (enc_length_le hcap hb) hpins hbuses,
          ← State.cutFailed_cons s b busy before seg e ps ps' as as']
        exact ih (s := (((s.setPins ps').flushed as').setPhase busy).setBuf b) hl hcap hbs htail rfl rfl

section
variable {s : State} {e : EnvError} {before after : List (List Byte)} {seg : List Byte} {ps : List PinAnswer}
  {as : List BusAnswer} (hs : Accepts s)
include hs

theorem exec_appendBatched_pin_err {c : Command} {b : List Byte} (hb : enc s.par c = .ok b) (hbuf : s.buf ≠ [])
    (hfull : s.par.cap < s.buf.length + b.length) (hpins : s.pins = .err e :: ps) :
    exec (.appendBatched c) s = .next (s.cutFailed [] s.buf e ps s.buses) := by
  rw [exec_appendBatched hs, runActs_append_full hb (not_le.2 hfull) hbuf, flushThen_cutFailed hpins]

theorem init_pin_err {ds : List DelayAnswer} (hp : s.par.Wf)
    (hsegs : segments s.par.cap (if s.par.initClearsBuffer then [] else s.buf) (initEncodings s.par s.cfg) =
      before ++ seg :: after)
    (hpins : s.pins = .ok :: .ok :: (List.replicate before.length .ok ++ .err e :: ps))
    (hbuses : s.buses = List.replicate before.length .ok ++ as) (hdelays : s.delays = .elapsed :: .elapsed :: ds) :
    CompletesIn (before.length + 2) .init s ((s.initReset s.pins ds).cutFailed before seg e ps as) := by
  have hcap : 11 ≤ s.par.cap := by
    obtain ⟨-, -, hcap, -⟩ := hp
    exact hcap
  obtain ⟨ph, hstart⟩ := runCall_initActs before.length hpins hdelays
  refine ⟨_, accept_of_accepts hs _, hstart.trans ?_, State.cutFailed_final ..⟩
  exact runCall_batchActs_pin_err .init (initTail s.par) (s := (s.initReset _ ds).setPhase ph) Life.noConfusion hcap
    (encAll_initCommands hp s.cfg) hsegs rfl hbuses

variable {cmds : List Command} {es : List (List Byte)} (hcap : 11 ≤ s.par.cap) (hes : encAll s.par cmds = .ok es)
  (hsegs : segments s.par.cap s.buf es = before ++ seg :: after)
  (hpins : s.pins = List.replicate before.length .ok ++ .err e :: ps)
  (hbuses : s.buses = List.replicate before.length .ok ++ as)
include hcap hes hsegs hpins hbuses

theorem batch_pin_err : CompletesIn before.length (.batch cmds) s (s.cutFailed before seg e ps as) :=
  ⟨_, accept_of_accepts hs _, runCall_batchActs_pin_err (.batch cmds) [.ret] hs.1 hcap hes hsegs hpins hbuses,
    State.cutFailed_final ..⟩

theorem send_pin_err : CompletesIn before.length (.send cmds) s (s.cutFailed before seg e ps as) := by
  obtain ⟨k, hacts, -⟩ := sendActs_eq cmds
  refine ⟨runActs (.send cmds) (sendActs cmds) s, ?_, ?_, State.cutFailed_final ..⟩
  · simp only [exec, execSend, accept_of_accepts hs, hes]
  · rw [hacts]
    exact runCall_batchActs_pin_err (.send cmds) k hs.1 hcap hes hsegs hpins hbuses

end

/-- Settles O60: APPEND_BATCHED's FLUSH, any FLUSH of BATCH's lines, which SEND and INIT run too, and O34 for WRITE. -/
theorem failedFlushEndsEveryCaller : Obligations.FailedFlushEndsEveryCaller := by
  intro s e before after seg ps as ds hs
  refine ⟨fun c b hb hbuf hfull hpins => ?_, fun cmds es hcap hes hsegs hpins hbuses => ?_,
    fun hp hsegs hpins hbuses hdelays => ?_, fun data depth area hp hin => ?_⟩
  · rw [exec_appendBatched_pin_err hs hb hbuf hfull hpins, hs.2]
    simp [State.cutFailed, State.transmitted, State.driveFailed, State.setBuf, segmentEvents]
  · rw [hs.2]
    exact ⟨batch_pin_err hs hcap hes hsegs hpins hbuses, send_pin_err hs hcap hes hsegs hpins hbuses⟩
  · rw [hs.2]
    exact init_pin_err hs hp hsegs hpins hbuses hdelays
  · obtain ⟨hflush, -⟩ := failedWriteLeavesADefiniteState data depth area s e 0 ps as hs hp hin
    intro q hsegs
    obtain ⟨hdrive, -⟩ := hflush before after seg hsegs
    exact hdrive

end Machine
end Sys2Proof
end
